-- ==== Sys2Proof/Word.lean ====
section
/-! DEFINITION. The two widths of this machine: an 8-bit datum and a 16-bit address (00_scope.md R6, R7). -/

namespace Sys2Proof

/-- A datum: 8 bits (00_scope.md R6, "data width 8 bits"). -/
abbrev Byte := BitVec 8

/-- An address, the program counter, or a 16-bit operand (00_scope.md R6, "address width 16 bits"). -/
abbrev Word := BitVec 16

end Sys2Proof
end

