-- ==== Sys2Proof/Config.lean ====
section
/-! DEFINITION. What one instance of the block fixes at construction, and the constants of the block (00_scope.md R6). -/

namespace Sys2Proof

/-- The construction arguments of an instance, constant for its life (00_scope.md R6; 92_eei_decisions.md D13, D14).
`State` carries them, because `step` takes nothing but a state (log 5). -/
structure Config where
  /-- PRG_MIRROR: whether 0xC000 to 0xFFFF folds onto 0x8000 to 0xBFFF. -/
  prgMirror : Bool
  /-- SP_RESET: the value reset gives SP. -/
  spReset : Byte
  deriving DecidableEq, Repr

namespace Config

/-- The instance `State.reset` describes. DESIGN CHOICE, unsafe: PRG_MIRROR false (log 3) and SP_RESET 0xFD, the
spec's own default (log 2). -/
def standard : Config := { prgMirror := false, spReset := 0xFD#8 }

/-- STACK_BASE (R6). -/
def stackBase : Word := 0x0100#16

/-- RESET_VECTOR, the address of the low byte (R6). -/
def resetVector : Word := 0xFFFC#16

/-- BRK_VECTOR, the address of the low byte (R6; 92_eei_decisions.md D9). -/
def brkVector : Word := 0xFFFE#16

/-- P_RESET: Unused and InterruptDisable set, all others clear (R6, 10_state.md R25). -/
def pReset : Byte := 0x24#8

/-- A_RESET, X_RESET and Y_RESET of `State.reset`: open in the spec. DESIGN CHOICE, unsafe (log 1). -/
def registerReset : Byte := 0x00#8

end Config

end Sys2Proof
end

