-- ==== Sys2Proof/Machine/Bits.lean ====
section
/-! DEFINITION. Byte order and sign of fields: the two halves of a word, a word from two bytes, the signed offset
(00_scope.md R7, 20_memory.md R58). -/

namespace Sys2Proof

/-- `lo8(v) = v[7:0]` (R7). -/
def lo8 (v : Word) : Byte := v.setWidth 8

/-- `hi8(v) = v[15:8]` (R7). -/
def hi8 (v : Word) : Byte := (v >>> 8).setWidth 8

/-- `{h, l}`, the 16-bit value `h * 256 + l` (R7). -/
def pair (h l : Byte) : Word := h ++ l

/-- `zext_16(v)` (R7). -/
def zext16 (v : Byte) : Word := v.setWidth 16

/-- The signed reading of an offset byte: "offset byte ≥0x80 is interpreted as `offset − 0x100`" (R7, R96). -/
def signedOffset (d : Byte) : Int := d.toInt

/-- The offset byte of a signed offset: modulo 256 (R110, "d = (target - (address_of_branch + 2)) mod 256"). -/
def offsetByte (off : Int) : Byte := BitVec.ofInt 8 off

end Sys2Proof
end

