-- ==== Sys2Proof/Machine/Memory.lean ====
section
/-! DEFINITION. The backing array M and the folding address decoder (10_state.md R32, 20_memory.md R50 to R57, R72). -/

namespace Sys2Proof.Machine

/-- M (R32): the cells that differ from `Memory.unlisted`, as pairs of a folded address and its byte. -/
abbrev Memory := List Host.Cell

/-- What a cell that is not listed reads as. INIT_MEM is open in the spec; DESIGN CHOICE, unsafe for a claim about
`State.reset` (log 4). A state may list any byte at any cell, so a statement over all states covers every INIT_MEM. -/
def Memory.unlisted : Byte := 0x00#8

/-- The canonical form: cells strictly rising, all of them below 2^16, none listed with the unlisted byte. -/
abbrev Memory.wf (m : Memory) : Prop :=
  m.Pairwise (fun c d => c.1 < d.1) ∧ ∀ c ∈ m, c.1 < 0x10000 ∧ c.2 ≠ Memory.unlisted

/-- The byte of cell `k`. -/
def Memory.readCell : Memory → Nat → Byte
  | [], _ => Memory.unlisted
  | c :: rest, k => if c.1 = k then c.2 else Memory.readCell rest k

/-- No entry for cell `k`. -/
def Memory.eraseCell (m : Memory) (k : Nat) : Memory := m.filter (fun c => c.1 != k)

/-- An entry for cell `k`, in its place in the rising order. -/
def Memory.insertCell : Memory → Nat → Byte → Memory
  | [], k, v => [(k, v)]
  | c :: rest, k, v => if k < c.1 then (k, v) :: c :: rest else c :: Memory.insertCell rest k v

/-- Cell `k` becomes `v`; writing the unlisted byte leaves the cell unlisted. -/
def Memory.writeCell (m : Memory) (k : Nat) (v : Byte) : Memory :=
  if v = Memory.unlisted then m.eraseCell k else (m.eraseCell k).insertCell k v

/-- The folding function (20_memory.md R51), "exact, in priority order". -/
def fold (prgMirror : Bool) (addr : Word) : Word :=
  if 0x0000 ≤ addr.toNat ∧ addr.toNat ≤ 0x1FFF then addr &&& 0x07FF#16
  else if 0x2000 ≤ addr.toNat ∧ addr.toNat ≤ 0x3FFF then 0x2000#16 + (addr &&& 0x0007#16)
  else if (0x8000 ≤ addr.toNat ∧ addr.toNat ≤ 0xFFFF) ∧ prgMirror = true then 0x8000#16 + (addr &&& 0x3FFF#16)
  else addr

/-- `get` over a memory alone: the byte at `fold addr` (R52). -/
def memGet (prgMirror : Bool) (m : Memory) (addr : Word) : Byte := m.readCell (fold prgMirror addr).toNat

/-- `get16` over a memory alone: little-endian, each byte folded on its own, `addr + 1` modulo 2^16 (R54). -/
def memGet16 (prgMirror : Bool) (m : Memory) (addr : Word) : Word :=
  pair (memGet prgMirror m (addr + 1#16)) (memGet prgMirror m addr)

/-- `set` over a memory alone (R53). -/
def memSet (prgMirror : Bool) (m : Memory) (addr : Word) (v : Byte) : Memory :=
  m.writeCell (fold prgMirror addr).toNat v

end Sys2Proof.Machine
end

