-- ==== Sys2Proof/Machine/State.lean ====
section
/-! DEFINITION. The state of one CORE instance (10_state.md R20 to R35), the reasons a step can stop, and reset. -/

namespace Sys2Proof.Machine

/-- The eight flags of P by their names in the spec (10_state.md R25); `brk` is Break. -/
inductive Flag where
  | carry | zero | interruptDisable | decimal | brk | unused | overflow | sign
  deriving DecidableEq, Repr

/-- The machine: six registers and the backing array (R20), with the construction arguments beside them (log 5). -/
structure State where
  /-- accumulator (R21) -/
  a : Byte
  /-- index register X (R22) -/
  x : Byte
  /-- index register Y (R22) -/
  y : Byte
  /-- stack pointer: low byte of the address of the next free stack byte (R23) -/
  sp : Byte
  /-- program counter (R24): between steps, the address of the next opcode byte, unfolded -/
  pc : Word
  /-- status register, eight stored bits (R25) -/
  p : Byte
  /-- the backing array M (R32) -/
  mem : Memory
  /-- PRG_MIRROR and SP_RESET, constant for the life of the instance (00_scope.md R6) -/
  cfg : Config
  deriving DecidableEq, Repr

/-- Why a step stops the machine. -/
inductive Fault where
  /-- UnimplementedOpcode (60_exceptions.md R211): raised by the fetch, when the byte `op` at `pc0` is one of the 105
  unimplemented bytes; the state is as before the step. Safe: the machine has no continuation here (log 6). -/
  | unimplementedOpcode (op : Byte) (pc0 : Word)
  deriving DecidableEq, Repr

/-- Why the model gives an instruction no meaning. -/
inductive Refusal where
  /-- An instruction whose arm of `exec` is still rejected by name. Raised by `exec` alone. Safe. -/
  | notModelled (mnemonic : String)
  deriving DecidableEq, Repr

/-- Right after reset of an instance whose memory lists nothing (70_reset_and_hazards.md R230, 10_state.md R35): PC
from the reset vector, SP_RESET, P_RESET. A, X, Y: DESIGN CHOICE, unsafe (log 1); memory and configuration: log 2, 3, 4. -/
def State.reset : State :=
  { a := Config.registerReset
    x := Config.registerReset
    y := Config.registerReset
    sp := Config.standard.spReset
    pc := memGet16 Config.standard.prgMirror [] Config.resetVector
    p := Config.pReset
    mem := []
    cfg := Config.standard }

end Sys2Proof.Machine
end

