-- ==== Sys2Proof/Machine/Flags.lean ====
section
/-! DEFINITION. The flag register's single-bit operations and the flag ALU (10_state.md R25 to R29). -/

namespace Sys2Proof.Machine

/-- The mask of a flag (R25). -/
def Flag.mask : Flag → Byte
  | .carry => 0x01#8
  | .zero => 0x02#8
  | .interruptDisable => 0x04#8
  | .decimal => 0x08#8
  | .brk => 0x10#8
  | .unused => 0x20#8
  | .overflow => 0x40#8
  | .sign => 0x80#8

/-- `is_set(flag)` (R28). -/
def isSet (f : Flag) (p : Byte) : Bool := (p &&& f.mask) != 0#8

/-- `set(flag)` (R28). -/
def setFlag (f : Flag) (p : Byte) : Byte := p ||| f.mask

/-- `clear(flag)` (R28). -/
def clearFlag (f : Flag) (p : Byte) : Byte := p &&& ~~~ f.mask

/-- `assign(flag, bool)` (R28). -/
def assignFlag (f : Flag) (b : Bool) (p : Byte) : Byte := if b then setFlag f p else clearFlag f p

/-- The Overflow rule: "operands of the same sign producing a result of the opposite sign" (R29). -/
def overflowOf (a b r : Byte) : Bool := ((a ^^^ r) &&& (b ^^^ r) &&& 0x80#8) != 0#8

/-- The flag ALU `compute_flags` (R29): recomputes exactly the flags of `mask` from the full-width result `t` and the
two addends `a` and `b`, and leaves the others. It has a clause for Carry, Zero, Sign and Overflow only. -/
def computeFlags (mask : List Flag) (t : Nat) (a b : Byte) (p : Byte) : Byte :=
  let r : Byte := BitVec.ofNat 8 t
  let p := if Flag.carry ∈ mask then assignFlag .carry (t.testBit 8) p else p
  let p := if Flag.zero ∈ mask then assignFlag .zero (r == 0#8) p else p
  let p := if Flag.sign ∈ mask then assignFlag .sign r.msb p else p
  if Flag.overflow ∈ mask then assignFlag .overflow (overflowOf a b r) p else p

/-- `SetZN(v)`: R29 with mask {Zero, Sign} and t = v. -/
def setZN (v : Byte) (p : Byte) : Byte := computeFlags [.zero, .sign] v.toNat 0#8 0#8 p

/-- The byte PHP and BRK push: P with Break and Unused forced to 1 (R25, R26; 47_transfers_stack.md R187). -/
def pushedStatus (p : Byte) : Byte := setFlag .brk (setFlag .unused p)

/-- One flag of the state's P. -/
def State.flag (s : State) (f : Flag) : Bool := isSet f s.p

/-- P.C as the number 0 or 1, the carry in. -/
def State.carryIn (s : State) : Nat := (s.flag .carry).toNat

end Sys2Proof.Machine
end

