-- ==== Sys2Proof/Machine/Ops.lean ====
section
/-! DEFINITION. The named operations over registers and memory: register writes, the memory port, the stack primitives,
trap entry and return, reset (20_memory.md R52 to R55, R69, R70; 60_exceptions.md R216, R217; 70_reset_and_hazards.md
R230). -/

namespace Sys2Proof.Machine

/-! ## Register writes (10_state.md R20) -/

/-- `A <- v`. -/
def State.setA (v : Byte) (s : State) : State := { s with a := v }
/-- `X <- v`. -/
def State.setX (v : Byte) (s : State) : State := { s with x := v }
/-- `Y <- v`. -/
def State.setY (v : Byte) (s : State) : State := { s with y := v }
/-- `SP <- v`. -/
def State.setSP (v : Byte) (s : State) : State := { s with sp := v }
/-- `PC <- v`. -/
def State.setPC (v : Word) (s : State) : State := { s with pc := v }
/-- `P <- v`, all eight bits. -/
def State.setP (v : Byte) (s : State) : State := { s with p := v }

/-- `P.f <- b` (10_state.md R28). -/
def State.assign (f : Flag) (b : Bool) (s : State) : State := s.setP (assignFlag f b s.p)

/-- `SetZN(v)` on the state's P (00_scope.md R8). -/
def State.writeZN (v : Byte) (s : State) : State := s.setP (setZN v s.p)

/-- Step 2 of 30_encoding.md R98: PC advances by the instruction's length, modulo 2^16. -/
def State.advance (n : Nat) (s : State) : State := s.setPC (s.pc + BitVec.ofNat 16 n)

/-! ## The memory port -/

/-- `get(addr)` (R52), `MemRead(addr, 1)`. -/
def State.get (s : State) (addr : Word) : Byte := memGet s.cfg.prgMirror s.mem addr

/-- `get16(addr)` (R54), `MemRead(addr, 2)`. -/
def State.get16 (s : State) (addr : Word) : Word := memGet16 s.cfg.prgMirror s.mem addr

/-- `set(addr, v)` (R53), `MemWrite(addr, 1, v)`. -/
def State.set (addr : Word) (v : Byte) (s : State) : State := { s with mem := memSet s.cfg.prgMirror s.mem addr v }

/-- `dump()` (R55): the resolved value of every address, in order. -/
def State.dump (s : State) : List Byte := (List.range 0x10000).map (fun k => s.get (BitVec.ofNat 16 k))

/-! ## The stack primitives -/

/-- The address `0x0100 + SP` (10_state.md R23). -/
def stackAddr (sp : Byte) : Word := Config.stackBase + zext16 sp

/-- `Push8(v)` (R69). -/
def State.push8 (v : Byte) (s : State) : State := (s.set (stackAddr s.sp) v).setSP (s.sp - 1#8)

/-- The state after `Pull8()` (R69). -/
def State.popped (s : State) : State := s.setSP (s.sp + 1#8)

/-- The byte `Pull8()` returns (R69): read at the incremented SP. -/
def State.top8 (s : State) : Byte := s.get (stackAddr (s.sp + 1#8))

/-- `Push16(w)` (R70): high byte first. -/
def State.push16 (w : Word) (s : State) : State := (s.push8 (hi8 w)).push8 (lo8 w)

/-- The word `Pull16()` returns (R70): low byte first. -/
def State.top16 (s : State) : Word := pair s.popped.top8 s.top8

/-- The state after `Pull16()` (R70). -/
def State.popped16 (s : State) : State := s.popped.popped

/-! ## Trap entry and return -/

/-- What trap entry does before it loads PC (60_exceptions.md R216, 48_control_nop.md R194), with PC already past the BRK
byte: PC and then the flags are pushed, Break and InterruptDisable become 1. -/
def State.trapSaved (s : State) : State :=
  (((s.push16 s.pc).push8 (pushedStatus s.p)).assign .brk true).assign .interruptDisable true

/-- Trap entry (R216, R194): after that, PC is loaded from the BRK vector. -/
def State.trapEntry (s : State) : State := s.trapSaved.setPC (s.trapSaved.get16 Config.brkVector)

/-- Trap return (60_exceptions.md R217, 48_control_nop.md R193): P, all eight bits, then PC, with nothing added. -/
def State.trapReturn (s : State) : State := (s.popped.popped16.setP s.top8).setPC s.popped.top16

/-! ## Reset -/

/-- The reset operation (70_reset_and_hazards.md R230, R231), on whatever memory it finds. A, X and Y are not
specified, so their values are arguments (log 14). -/
def State.applyReset (a x y : Byte) (s : State) : State :=
  { a := a
    x := x
    y := y
    sp := s.cfg.spReset
    pc := s.get16 Config.resetVector
    p := Config.pReset
    mem := s.mem
    cfg := s.cfg }

end Sys2Proof.Machine
end

