-- ==== Sys2Proof/Syntax.lean ====
section
/-! DEFINITION. The syntax of instructions: the thirteen addressing modes, the 56 mnemonics, and one constructor of
`Instr` for each of the 151 rows of spec/opcode_table.json (30_encoding.md R83, R100). -/

namespace Sys2Proof

/-- The thirteen addressing modes, as tags (30_encoding.md R83). -/
inductive Mode where
  | implied | accumulator | immediate | zeroPage | zeroPageX | zeroPageY | absolute
  | absoluteX | absoluteY | indirect | indexedIndirect | indirectIndexed | relative
  deriving DecidableEq, Repr

/-- The eleven modes that have an effective address, each with its operand: an operand byte `d`, a 16-bit operand `w`,
or the signed offset of a branch (R86 to R96). -/
inductive EaMode where
  | immediate (d : Byte)
  | zeroPage (d : Byte)
  | zeroPageX (d : Byte)
  | zeroPageY (d : Byte)
  | absolute (w : Word)
  | absoluteX (w : Word)
  | absoluteY (w : Word)
  | indirect (w : Word)
  | indexedIndirect (d : Byte)
  | indirectIndexed (d : Byte)
  | relative (off : Int)
  deriving DecidableEq, Repr

/-- An operand in one of the thirteen modes: Implied (R84) and Accumulator (R85) have no effective address. -/
inductive Operand where
  | implied
  | accumulator
  | at (m : EaMode)
  deriving DecidableEq, Repr

/-- The 56 mnemonics (00_scope.md R2). -/
inductive Mnemonic where
  | adc | sbc | and | ora | eor | asl | lsr | rol
  | ror | cmp | cpx | cpy | bpl | bmi | bvc | bvs
  | bcc | bcs | bne | beq | inc | dec | inx | iny
  | dex | dey | lda | ldx | ldy | sta | stx | sty
  | tax | tay | txa | tya | tsx | txs | pha | php
  | pla | plp | jmp | jsr | rts | rti | brk | nop
  | clc | sec | cli | sei | clv | cld | sed | bit
  deriving DecidableEq, Repr

/-- The instructions: one constructor for each row of the opcode table (R100), with the row's operand. A mnemonic
without a suffix has one form; Acc, Imm, Zp, Zpx, Zpy, Abs, Abx, Aby, Ind, Izx, Izy name the mode (log 24). The
operand of a branch is its signed offset (R96, log 11). -/
inductive Instr where
  | adcImm (d : Byte) | adcZp (d : Byte) | adcZpx (d : Byte) | adcAbs (w : Word) | adcAbx (w : Word)
  | adcAby (w : Word) | adcIzx (d : Byte) | adcIzy (d : Byte)
  | sbcImm (d : Byte) | sbcZp (d : Byte) | sbcZpx (d : Byte) | sbcAbs (w : Word) | sbcAbx (w : Word)
  | sbcAby (w : Word) | sbcIzx (d : Byte) | sbcIzy (d : Byte)
  | andImm (d : Byte) | andZp (d : Byte) | andZpx (d : Byte) | andAbs (w : Word) | andAbx (w : Word)
  | andAby (w : Word) | andIzx (d : Byte) | andIzy (d : Byte)
  | oraImm (d : Byte) | oraZp (d : Byte) | oraZpx (d : Byte) | oraAbs (w : Word) | oraAbx (w : Word)
  | oraAby (w : Word) | oraIzx (d : Byte) | oraIzy (d : Byte)
  | eorImm (d : Byte) | eorZp (d : Byte) | eorZpx (d : Byte) | eorAbs (w : Word) | eorAbx (w : Word)
  | eorAby (w : Word) | eorIzx (d : Byte) | eorIzy (d : Byte)
  | aslAcc | aslZp (d : Byte) | aslZpx (d : Byte) | aslAbs (w : Word) | aslAbx (w : Word)
  | lsrAcc | lsrZp (d : Byte) | lsrZpx (d : Byte) | lsrAbs (w : Word) | lsrAbx (w : Word)
  | rolAcc | rolZp (d : Byte) | rolZpx (d : Byte) | rolAbs (w : Word) | rolAbx (w : Word)
  | rorAcc | rorZp (d : Byte) | rorZpx (d : Byte) | rorAbs (w : Word) | rorAbx (w : Word)
  | cmpImm (d : Byte) | cmpZp (d : Byte) | cmpZpx (d : Byte) | cmpAbs (w : Word) | cmpAbx (w : Word)
  | cmpAby (w : Word) | cmpIzx (d : Byte) | cmpIzy (d : Byte)
  | cpxImm (d : Byte) | cpxZp (d : Byte) | cpxAbs (w : Word)
  | cpyImm (d : Byte) | cpyZp (d : Byte) | cpyAbs (w : Word)
  | bpl (off : Int)
  | bmi (off : Int)
  | bvc (off : Int)
  | bvs (off : Int)
  | bcc (off : Int)
  | bcs (off : Int)
  | bne (off : Int)
  | beq (off : Int)
  | incZp (d : Byte) | incZpx (d : Byte) | incAbs (w : Word) | incAbx (w : Word)
  | decZp (d : Byte) | decZpx (d : Byte) | decAbs (w : Word) | decAbx (w : Word)
  | inx
  | iny
  | dex
  | dey
  | ldaImm (d : Byte) | ldaZp (d : Byte) | ldaZpx (d : Byte) | ldaAbs (w : Word) | ldaAbx (w : Word)
  | ldaAby (w : Word) | ldaIzx (d : Byte) | ldaIzy (d : Byte)
  | ldxImm (d : Byte) | ldxZp (d : Byte) | ldxZpy (d : Byte) | ldxAbs (w : Word) | ldxAby (w : Word)
  | ldyImm (d : Byte) | ldyZp (d : Byte) | ldyZpx (d : Byte) | ldyAbs (w : Word) | ldyAbx (w : Word)
  | staZp (d : Byte) | staZpx (d : Byte) | staAbs (w : Word) | staAbx (w : Word) | staAby (w : Word)
  | staIzx (d : Byte) | staIzy (d : Byte)
  | stxZp (d : Byte) | stxZpy (d : Byte) | stxAbs (w : Word)
  | styZp (d : Byte) | styZpx (d : Byte) | styAbs (w : Word)
  | tax
  | tay
  | txa
  | tya
  | tsx
  | txs
  | pha
  | php
  | pla
  | plp
  | jmpAbs (w : Word) | jmpInd (w : Word)
  | jsr (w : Word)
  | rts
  | rti
  | brk
  | nop
  | clc
  | sec
  | cli
  | sei
  | clv
  | cld
  | sed
  | bitZp (d : Byte) | bitAbs (w : Word)
  deriving DecidableEq, Repr

end Sys2Proof
end

