-- ==== Sys2Proof/Machine/Operands.lean ====
section
/-! DEFINITION. The addressing-mode resolver and operand access (30_encoding.md R83 to R97, R105). Every function here
takes the state with PC already advanced past the instruction (R98 step 2): PC is `pc0 + length`. -/

namespace Sys2Proof.Machine

/-- The high byte of the Indirect pointer's target: "if the pointer's low byte is 0xFF, the high byte is fetched from the
start of the same page" (R93). -/
def samePageNext (ptr : Word) : Word := pair (hi8 ptr) (lo8 ptr + 1#8)

/-- The base of an indexed mode, before the index is added: what a page cross is measured against (R91, R92, R95). -/
def State.baseAddr (m : EaMode) (s : State) : Option Word :=
  match m with
  | .absoluteX w => some w
  | .absoluteY w => some w
  | .indirectIndexed d => some (s.get16 (zext16 d))
  | .immediate _ => none
  | .zeroPage _ => none
  | .zeroPageX _ => none
  | .zeroPageY _ => none
  | .absolute _ => none
  | .indirect _ => none
  | .indexedIndirect _ => none
  | .relative _ => none

/-- The effective address (R86 to R96). Immediate: the address of the literal byte, `pc0 + 1`. Relative: from the
post-instruction PC. -/
def State.ea (m : EaMode) (s : State) : Word :=
  match m with
  | .immediate _ => s.pc - 1#16
  | .zeroPage d => zext16 d
  | .zeroPageX d => zext16 (d + s.x)
  | .zeroPageY d => zext16 (d + s.y)
  | .absolute w => w
  | .absoluteX w => w + zext16 s.x
  | .absoluteY w => w + zext16 s.y
  | .indirect w => pair (s.get (samePageNext w)) (s.get w)
  | .indexedIndirect d => s.get16 (zext16 (d + s.x))
  | .indirectIndexed d => s.get16 (zext16 d) + zext16 s.y
  | .relative off => s.pc + BitVec.ofInt 16 off

/-- The resolver's page_crossed: the high bytes of the effective address and of its base differ; false in every mode
without an indexed 16-bit base (R84 to R96). -/
def State.pageCrossed (m : EaMode) (s : State) : Bool :=
  match s.baseAddr m with
  | some base => hi8 (s.ea m) != hi8 base
  | none => false

/-- `operand`, that is `MemRead(ea, 1)` (00_scope.md R11). In Immediate mode that byte is the operand byte itself (R86),
which the instruction carries (log 10). -/
def State.operand (m : EaMode) (s : State) : Byte :=
  match m with
  | .immediate d => d
  | .zeroPage d => s.get (s.ea (.zeroPage d))
  | .zeroPageX d => s.get (s.ea (.zeroPageX d))
  | .zeroPageY d => s.get (s.ea (.zeroPageY d))
  | .absolute w => s.get (s.ea (.absolute w))
  | .absoluteX w => s.get (s.ea (.absoluteX w))
  | .absoluteY w => s.get (s.ea (.absoluteY w))
  | .indirect w => s.get (s.ea (.indirect w))
  | .indexedIndirect d => s.get (s.ea (.indexedIndirect d))
  | .indirectIndexed d => s.get (s.ea (.indirectIndexed d))
  | .relative off => s.get (s.ea (.relative off))

/-- `ReadOp()` (R105): A when there is no effective address (Accumulator mode), the byte at it otherwise. -/
def State.readOp (ea : Option Word) (s : State) : Byte :=
  match ea with
  | none => s.a
  | some addr => s.get addr

/-- `WriteOp(v)` (R105). -/
def State.writeOp (ea : Option Word) (v : Byte) (s : State) : State :=
  match ea with
  | none => s.setA v
  | some addr => s.set addr v

end Sys2Proof.Machine
end

