-- ==== Sys2Proof/Machine/Arithmetic.lean ====
section
/-! DEFINITION. ADC and SBC (40_arithmetic.md R130 to R132). -/

namespace Sys2Proof.Machine

/-- `A <- A + b + C` with the flag ALU on {C, Z, V, N} (R29): the sum both ADC and SBC form. P.D is not read. -/
def addToA (b : Byte) (s : State) : State :=
  let t := s.a.toNat + b.toNat + s.carryIn
  (s.setA (BitVec.ofNat 8 t)).setP (computeFlags [.carry, .zero, .overflow, .sign] t s.a b s.p)

/-- ADC (R130): add memory to accumulator with carry. -/
def adc (m : EaMode) (s : State) : State := addToA (s.operand m) s

/-- ADC Immediate, 0x69 (R130, R86). -/
def execAdcImm (d : Byte) (s : State) : Host.Outcome State Fault Refusal := .next (adc (.immediate d) s)
/-- ADC ZeroPage, 0x65 (R130, R87). -/
def execAdcZp (d : Byte) (s : State) : Host.Outcome State Fault Refusal := .next (adc (.zeroPage d) s)
/-- ADC ZeroPageX, 0x75 (R130, R88). -/
def execAdcZpx (d : Byte) (s : State) : Host.Outcome State Fault Refusal := .next (adc (.zeroPageX d) s)
/-- ADC Absolute, 0x6D (R130, R90). -/
def execAdcAbs (w : Word) (s : State) : Host.Outcome State Fault Refusal := .next (adc (.absolute w) s)
/-- ADC AbsoluteX, 0x7D (R130, R91). -/
def execAdcAbx (w : Word) (s : State) : Host.Outcome State Fault Refusal := .next (adc (.absoluteX w) s)
/-- ADC AbsoluteY, 0x79 (R130, R92). -/
def execAdcAby (w : Word) (s : State) : Host.Outcome State Fault Refusal := .next (adc (.absoluteY w) s)
/-- ADC IndexedIndirect, 0x61 (R130, R94). -/
def execAdcIzx (d : Byte) (s : State) : Host.Outcome State Fault Refusal := .next (adc (.indexedIndirect d) s)
/-- ADC IndirectIndexed, 0x71 (R130, R95). -/
def execAdcIzy (d : Byte) (s : State) : Host.Outcome State Fault Refusal := .next (adc (.indirectIndexed d) s)

/-- SBC (R131): add the one's complement of memory to accumulator with carry. -/
def sbc (m : EaMode) (s : State) : State := addToA (s.operand m ^^^ 0xFF#8) s

/-- SBC Immediate, 0xE9 (R131, R86). -/
def execSbcImm (d : Byte) (s : State) : Host.Outcome State Fault Refusal := .next (sbc (.immediate d) s)
/-- SBC ZeroPage, 0xE5 (R131, R87). -/
def execSbcZp (d : Byte) (s : State) : Host.Outcome State Fault Refusal := .next (sbc (.zeroPage d) s)
/-- SBC ZeroPageX, 0xF5 (R131, R88). -/
def execSbcZpx (d : Byte) (s : State) : Host.Outcome State Fault Refusal := .next (sbc (.zeroPageX d) s)
/-- SBC Absolute, 0xED (R131, R90). -/
def execSbcAbs (w : Word) (s : State) : Host.Outcome State Fault Refusal := .next (sbc (.absolute w) s)
/-- SBC AbsoluteX, 0xFD (R131, R91). -/
def execSbcAbx (w : Word) (s : State) : Host.Outcome State Fault Refusal := .next (sbc (.absoluteX w) s)
/-- SBC AbsoluteY, 0xF9 (R131, R92). -/
def execSbcAby (w : Word) (s : State) : Host.Outcome State Fault Refusal := .next (sbc (.absoluteY w) s)
/-- SBC IndexedIndirect, 0xE1 (R131, R94). -/
def execSbcIzx (d : Byte) (s : State) : Host.Outcome State Fault Refusal := .next (sbc (.indexedIndirect d) s)
/-- SBC IndirectIndexed, 0xF1 (R131, R95). -/
def execSbcIzy (d : Byte) (s : State) : Host.Outcome State Fault Refusal := .next (sbc (.indirectIndexed d) s)

end Sys2Proof.Machine
end

