-- ==== Sys2Proof/Machine/Branches.lean ====
section
/-! DEFINITION. The eight conditional branches (44_branches.md R150 to R158). -/

namespace Sys2Proof.Machine

/-- The common branch rule (R150): PC, already past the branch, becomes the effective address when flag `f` is `b`. -/
def branchOn (f : Flag) (b : Bool) (off : Int) (s : State) : State :=
  if s.flag f = b then s.setPC (s.ea (.relative off)) else s

/-- BPL Relative, 0x10 (R151, R96). -/
def execBpl (off : Int) (s : State) : Host.Outcome State Fault Refusal := .next (branchOn .sign false off s)

/-- BMI Relative, 0x30 (R152, R96). -/
def execBmi (off : Int) (s : State) : Host.Outcome State Fault Refusal := .next (branchOn .sign true off s)

/-- BVC Relative, 0x50 (R153, R96). -/
def execBvc (off : Int) (s : State) : Host.Outcome State Fault Refusal := .next (branchOn .overflow false off s)

/-- BVS Relative, 0x70 (R154, R96). -/
def execBvs (off : Int) (s : State) : Host.Outcome State Fault Refusal := .next (branchOn .overflow true off s)

/-- BCC Relative, 0x90 (R155, R96). -/
def execBcc (off : Int) (s : State) : Host.Outcome State Fault Refusal := .next (branchOn .carry false off s)

/-- BCS Relative, 0xB0 (R156, R96). -/
def execBcs (off : Int) (s : State) : Host.Outcome State Fault Refusal := .next (branchOn .carry true off s)

/-- BNE Relative, 0xD0 (R157, R96). -/
def execBne (off : Int) (s : State) : Host.Outcome State Fault Refusal := .next (branchOn .zero false off s)

/-- BEQ Relative, 0xF0 (R158, R96). -/
def execBeq (off : Int) (s : State) : Host.Outcome State Fault Refusal := .next (branchOn .zero true off s)

end Sys2Proof.Machine
end

