-- ==== Sys2Proof/Machine/Compares.lean ====
section
/-! DEFINITION. CMP, CPX and CPY (43_compares.md R145 to R147). -/

namespace Sys2Proof.Machine

/-- The subtraction of R131 with `g` for A and a carry in of 1: no register is written, Overflow is not in the mask. -/
def compareWith (g m : Byte) (s : State) : State :=
  let b := m ^^^ 0xFF#8
  s.setP (computeFlags [.carry, .zero, .sign] (g.toNat + b.toNat + 1) g b s.p)

/-- CMP (R145): compare memory with A. -/
def cmp (m : EaMode) (s : State) : State := compareWith s.a (s.operand m) s

/-- CMP Immediate, 0xC9 (R145, R86). -/
def execCmpImm (d : Byte) (s : State) : Host.Outcome State Fault Refusal := .next (cmp (.immediate d) s)
/-- CMP ZeroPage, 0xC5 (R145, R87). -/
def execCmpZp (d : Byte) (s : State) : Host.Outcome State Fault Refusal := .next (cmp (.zeroPage d) s)
/-- CMP ZeroPageX, 0xD5 (R145, R88). -/
def execCmpZpx (d : Byte) (s : State) : Host.Outcome State Fault Refusal := .next (cmp (.zeroPageX d) s)
/-- CMP Absolute, 0xCD (R145, R90). -/
def execCmpAbs (w : Word) (s : State) : Host.Outcome State Fault Refusal := .next (cmp (.absolute w) s)
/-- CMP AbsoluteX, 0xDD (R145, R91). -/
def execCmpAbx (w : Word) (s : State) : Host.Outcome State Fault Refusal := .next (cmp (.absoluteX w) s)
/-- CMP AbsoluteY, 0xD9 (R145, R92). -/
def execCmpAby (w : Word) (s : State) : Host.Outcome State Fault Refusal := .next (cmp (.absoluteY w) s)
/-- CMP IndexedIndirect, 0xC1 (R145, R94). -/
def execCmpIzx (d : Byte) (s : State) : Host.Outcome State Fault Refusal := .next (cmp (.indexedIndirect d) s)
/-- CMP IndirectIndexed, 0xD1 (R145, R95). -/
def execCmpIzy (d : Byte) (s : State) : Host.Outcome State Fault Refusal := .next (cmp (.indirectIndexed d) s)

/-- CPX (R146): compare memory with X. -/
def cpx (m : EaMode) (s : State) : State := compareWith s.x (s.operand m) s

/-- CPX Immediate, 0xE0 (R146, R86). -/
def execCpxImm (d : Byte) (s : State) : Host.Outcome State Fault Refusal := .next (cpx (.immediate d) s)
/-- CPX ZeroPage, 0xE4 (R146, R87). -/
def execCpxZp (d : Byte) (s : State) : Host.Outcome State Fault Refusal := .next (cpx (.zeroPage d) s)
/-- CPX Absolute, 0xEC (R146, R90). -/
def execCpxAbs (w : Word) (s : State) : Host.Outcome State Fault Refusal := .next (cpx (.absolute w) s)

/-- CPY (R147): compare memory with Y. -/
def cpy (m : EaMode) (s : State) : State := compareWith s.y (s.operand m) s

/-- CPY Immediate, 0xC0 (R147, R86). -/
def execCpyImm (d : Byte) (s : State) : Host.Outcome State Fault Refusal := .next (cpy (.immediate d) s)
/-- CPY ZeroPage, 0xC4 (R147, R87). -/
def execCpyZp (d : Byte) (s : State) : Host.Outcome State Fault Refusal := .next (cpy (.zeroPage d) s)
/-- CPY Absolute, 0xCC (R147, R90). -/
def execCpyAbs (w : Word) (s : State) : Host.Outcome State Fault Refusal := .next (cpy (.absolute w) s)

end Sys2Proof.Machine
end

