-- ==== Sys2Proof/Machine/Control.lean ====
section
/-! DEFINITION. JMP, JSR, RTS, RTI, BRK and NOP (48_control_nop.md R190 to R195). -/

namespace Sys2Proof.Machine

/-- JMP (R190): `PC <- ea`. -/
def jmp (m : EaMode) (s : State) : State := s.setPC (s.ea m)

/-- JMP Absolute, 0x4C (R190, R90). -/
def execJmpAbs (w : Word) (s : State) : Host.Outcome State Fault Refusal := .next (jmp (.absolute w) s)
/-- JMP Indirect, 0x6C (R190, R93). -/
def execJmpInd (w : Word) (s : State) : Host.Outcome State Fault Refusal := .next (jmp (.indirect w) s)

/-- JSR (R191): push the address of the last byte of the JSR (PC - 1, PC being the return address), then `PC <- ea`. -/
def jsr (m : EaMode) (s : State) : State := (s.push16 (s.pc - 1#16)).setPC (s.ea m)

/-- JSR Absolute, 0x20 (R191, R90). -/
def execJsr (w : Word) (s : State) : Host.Outcome State Fault Refusal := .next (jsr (.absolute w) s)

/-- RTS (R192): `PC <- Pull16() + 1`. -/
def rts (s : State) : State := s.popped16.setPC (s.top16 + 1#16)

/-- RTS Implied, 0x60 (R192, R84). -/
def execRts (s : State) : Host.Outcome State Fault Refusal := .next (rts s)

/-- RTI Implied, 0x40 (R193, R84). -/
def execRti (s : State) : Host.Outcome State Fault Refusal := .next (s.trapReturn)

/-- BRK Implied, 0x00 (R194, R84). -/
def execBrk (s : State) : Host.Outcome State Fault Refusal := .next (s.trapEntry)

/-- NOP Implied, 0xEA (R195, R84). -/
def execNop (s : State) : Host.Outcome State Fault Refusal := .next (s)

end Sys2Proof.Machine
end

