-- ==== Sys2Proof/Machine/FlagOps.lean ====
section
/-! DEFINITION. CLC, SEC, CLI, SEI, CLV, CLD, SED and BIT (49_flagops_bit.md R200 to R207). -/

namespace Sys2Proof.Machine

/-- CLC Implied, 0x18 (R200, R84). -/
def execClc (s : State) : Host.Outcome State Fault Refusal := .next (s.assign .carry false)

/-- SEC Implied, 0x38 (R201, R84). -/
def execSec (s : State) : Host.Outcome State Fault Refusal := .next (s.assign .carry true)

/-- CLI Implied, 0x58 (R202, R84). -/
def execCli (s : State) : Host.Outcome State Fault Refusal := .next (s.assign .interruptDisable false)

/-- SEI Implied, 0x78 (R203, R84). -/
def execSei (s : State) : Host.Outcome State Fault Refusal := .next (s.assign .interruptDisable true)

/-- CLV Implied, 0xB8 (R204, R84). -/
def execClv (s : State) : Host.Outcome State Fault Refusal := .next (s.assign .overflow false)

/-- CLD Implied, 0xD8 (R205, R84). -/
def execCld (s : State) : Host.Outcome State Fault Refusal := .next (s.assign .decimal false)

/-- SED Implied, 0xF8 (R206, R84). -/
def execSed (s : State) : Host.Outcome State Fault Refusal := .next (s.assign .decimal true)

/-- BIT (R207): Z from `A & m`, N from bit 7 and V from bit 6 of `m`; A is not written. -/
def bitTest (m : EaMode) (s : State) : State :=
  let v := s.operand m
  ((s.assign .zero ((s.a &&& v) == 0#8)).assign .sign (v.getLsbD 7)).assign .overflow (v.getLsbD 6)

/-- BIT ZeroPage, 0x24 (R207, R87). -/
def execBitZp (d : Byte) (s : State) : Host.Outcome State Fault Refusal := .next (bitTest (.zeroPage d) s)
/-- BIT Absolute, 0x2C (R207, R90). -/
def execBitAbs (w : Word) (s : State) : Host.Outcome State Fault Refusal := .next (bitTest (.absolute w) s)

end Sys2Proof.Machine
end

