-- ==== Sys2Proof/Machine/IncDec.lean ====
section
/-! DEFINITION. INC, DEC, INX, INY, DEX and DEY (45_incdec.md R160 to R165). -/

namespace Sys2Proof.Machine

/-- One read and one write of the effective address, then `SetZN` of the byte written. -/
def modifyAt (ea : Word) (f : Byte → Byte) (s : State) : State :=
  let r := f (s.get ea)
  (s.set ea r).writeZN r

/-- INC (R160): increment memory, modulo 256. -/
def inc (m : EaMode) (s : State) : State := modifyAt (s.ea m) (fun v => v + 1#8) s

/-- INC ZeroPage, 0xE6 (R160, R87). -/
def execIncZp (d : Byte) (s : State) : Host.Outcome State Fault Refusal := .next (inc (.zeroPage d) s)
/-- INC ZeroPageX, 0xF6 (R160, R88). -/
def execIncZpx (d : Byte) (s : State) : Host.Outcome State Fault Refusal := .next (inc (.zeroPageX d) s)
/-- INC Absolute, 0xEE (R160, R90). -/
def execIncAbs (w : Word) (s : State) : Host.Outcome State Fault Refusal := .next (inc (.absolute w) s)
/-- INC AbsoluteX, 0xFE (R160, R91). -/
def execIncAbx (w : Word) (s : State) : Host.Outcome State Fault Refusal := .next (inc (.absoluteX w) s)

/-- DEC (R161): decrement memory, modulo 256. -/
def dec (m : EaMode) (s : State) : State := modifyAt (s.ea m) (fun v => v - 1#8) s

/-- DEC ZeroPage, 0xC6 (R161, R87). -/
def execDecZp (d : Byte) (s : State) : Host.Outcome State Fault Refusal := .next (dec (.zeroPage d) s)
/-- DEC ZeroPageX, 0xD6 (R161, R88). -/
def execDecZpx (d : Byte) (s : State) : Host.Outcome State Fault Refusal := .next (dec (.zeroPageX d) s)
/-- DEC Absolute, 0xCE (R161, R90). -/
def execDecAbs (w : Word) (s : State) : Host.Outcome State Fault Refusal := .next (dec (.absolute w) s)
/-- DEC AbsoluteX, 0xDE (R161, R91). -/
def execDecAbx (w : Word) (s : State) : Host.Outcome State Fault Refusal := .next (dec (.absoluteX w) s)

/-- INX (R162): increment X, modulo 256. -/
def inx (s : State) : State := (s.setX (s.x + 1#8)).writeZN (s.x + 1#8)

/-- INX Implied, 0xE8 (R162, R84). -/
def execInx (s : State) : Host.Outcome State Fault Refusal := .next (inx s)

/-- INY (R163): increment Y, modulo 256. -/
def iny (s : State) : State := (s.setY (s.y + 1#8)).writeZN (s.y + 1#8)

/-- INY Implied, 0xC8 (R163, R84). -/
def execIny (s : State) : Host.Outcome State Fault Refusal := .next (iny s)

/-- DEX (R164): decrement X, modulo 256. -/
def dex (s : State) : State := (s.setX (s.x - 1#8)).writeZN (s.x - 1#8)

/-- DEX Implied, 0xCA (R164, R84). -/
def execDex (s : State) : Host.Outcome State Fault Refusal := .next (dex s)

/-- DEY (R165): decrement Y, modulo 256. -/
def dey (s : State) : State := (s.setY (s.y - 1#8)).writeZN (s.y - 1#8)

/-- DEY Implied, 0x88 (R165, R84). -/
def execDey (s : State) : Host.Outcome State Fault Refusal := .next (dey s)

end Sys2Proof.Machine
end

