-- ==== Sys2Proof/Machine/LoadStore.lean ====
section
/-! DEFINITION. LDA, LDX, LDY, STA, STX and STY (46_load_store.md R170 to R175). -/

namespace Sys2Proof.Machine

/-- LDA (R170): `A <- MemRead(ea, 1)`, then `SetZN`. -/
def lda (m : EaMode) (s : State) : State := (s.setA (s.operand m)).writeZN (s.operand m)

/-- LDA Immediate, 0xA9 (R170, R86). -/
def execLdaImm (d : Byte) (s : State) : Host.Outcome State Fault Refusal := .next (lda (.immediate d) s)
/-- LDA ZeroPage, 0xA5 (R170, R87). -/
def execLdaZp (d : Byte) (s : State) : Host.Outcome State Fault Refusal := .next (lda (.zeroPage d) s)
/-- LDA ZeroPageX, 0xB5 (R170, R88). -/
def execLdaZpx (d : Byte) (s : State) : Host.Outcome State Fault Refusal := .next (lda (.zeroPageX d) s)
/-- LDA Absolute, 0xAD (R170, R90). -/
def execLdaAbs (w : Word) (s : State) : Host.Outcome State Fault Refusal := .next (lda (.absolute w) s)
/-- LDA AbsoluteX, 0xBD (R170, R91). -/
def execLdaAbx (w : Word) (s : State) : Host.Outcome State Fault Refusal := .next (lda (.absoluteX w) s)
/-- LDA AbsoluteY, 0xB9 (R170, R92). -/
def execLdaAby (w : Word) (s : State) : Host.Outcome State Fault Refusal := .next (lda (.absoluteY w) s)
/-- LDA IndexedIndirect, 0xA1 (R170, R94). -/
def execLdaIzx (d : Byte) (s : State) : Host.Outcome State Fault Refusal := .next (lda (.indexedIndirect d) s)
/-- LDA IndirectIndexed, 0xB1 (R170, R95). -/
def execLdaIzy (d : Byte) (s : State) : Host.Outcome State Fault Refusal := .next (lda (.indirectIndexed d) s)

/-- LDX (R171): `X <- MemRead(ea, 1)`, then `SetZN`. -/
def ldx (m : EaMode) (s : State) : State := (s.setX (s.operand m)).writeZN (s.operand m)

/-- LDX Immediate, 0xA2 (R171, R86). -/
def execLdxImm (d : Byte) (s : State) : Host.Outcome State Fault Refusal := .next (ldx (.immediate d) s)
/-- LDX ZeroPage, 0xA6 (R171, R87). -/
def execLdxZp (d : Byte) (s : State) : Host.Outcome State Fault Refusal := .next (ldx (.zeroPage d) s)
/-- LDX ZeroPageY, 0xB6 (R171, R89). -/
def execLdxZpy (d : Byte) (s : State) : Host.Outcome State Fault Refusal := .next (ldx (.zeroPageY d) s)
/-- LDX Absolute, 0xAE (R171, R90). -/
def execLdxAbs (w : Word) (s : State) : Host.Outcome State Fault Refusal := .next (ldx (.absolute w) s)
/-- LDX AbsoluteY, 0xBE (R171, R92). -/
def execLdxAby (w : Word) (s : State) : Host.Outcome State Fault Refusal := .next (ldx (.absoluteY w) s)

/-- LDY (R172): `Y <- MemRead(ea, 1)`, then `SetZN`. -/
def ldy (m : EaMode) (s : State) : State := (s.setY (s.operand m)).writeZN (s.operand m)

/-- LDY Immediate, 0xA0 (R172, R86). -/
def execLdyImm (d : Byte) (s : State) : Host.Outcome State Fault Refusal := .next (ldy (.immediate d) s)
/-- LDY ZeroPage, 0xA4 (R172, R87). -/
def execLdyZp (d : Byte) (s : State) : Host.Outcome State Fault Refusal := .next (ldy (.zeroPage d) s)
/-- LDY ZeroPageX, 0xB4 (R172, R88). -/
def execLdyZpx (d : Byte) (s : State) : Host.Outcome State Fault Refusal := .next (ldy (.zeroPageX d) s)
/-- LDY Absolute, 0xAC (R172, R90). -/
def execLdyAbs (w : Word) (s : State) : Host.Outcome State Fault Refusal := .next (ldy (.absolute w) s)
/-- LDY AbsoluteX, 0xBC (R172, R91). -/
def execLdyAbx (w : Word) (s : State) : Host.Outcome State Fault Refusal := .next (ldy (.absoluteX w) s)

/-- STA (R173): `MemWrite(ea, 1, A)`; no flag, no register. -/
def sta (m : EaMode) (s : State) : State := s.set (s.ea m) s.a

/-- STA ZeroPage, 0x85 (R173, R87). -/
def execStaZp (d : Byte) (s : State) : Host.Outcome State Fault Refusal := .next (sta (.zeroPage d) s)
/-- STA ZeroPageX, 0x95 (R173, R88). -/
def execStaZpx (d : Byte) (s : State) : Host.Outcome State Fault Refusal := .next (sta (.zeroPageX d) s)
/-- STA Absolute, 0x8D (R173, R90). -/
def execStaAbs (w : Word) (s : State) : Host.Outcome State Fault Refusal := .next (sta (.absolute w) s)
/-- STA AbsoluteX, 0x9D (R173, R91). -/
def execStaAbx (w : Word) (s : State) : Host.Outcome State Fault Refusal := .next (sta (.absoluteX w) s)
/-- STA AbsoluteY, 0x99 (R173, R92). -/
def execStaAby (w : Word) (s : State) : Host.Outcome State Fault Refusal := .next (sta (.absoluteY w) s)
/-- STA IndexedIndirect, 0x81 (R173, R94). -/
def execStaIzx (d : Byte) (s : State) : Host.Outcome State Fault Refusal := .next (sta (.indexedIndirect d) s)
/-- STA IndirectIndexed, 0x91 (R173, R95). -/
def execStaIzy (d : Byte) (s : State) : Host.Outcome State Fault Refusal := .next (sta (.indirectIndexed d) s)

/-- STX (R174): `MemWrite(ea, 1, X)`; no flag, no register. -/
def stx (m : EaMode) (s : State) : State := s.set (s.ea m) s.x

/-- STX ZeroPage, 0x86 (R174, R87). -/
def execStxZp (d : Byte) (s : State) : Host.Outcome State Fault Refusal := .next (stx (.zeroPage d) s)
/-- STX ZeroPageY, 0x96 (R174, R89). -/
def execStxZpy (d : Byte) (s : State) : Host.Outcome State Fault Refusal := .next (stx (.zeroPageY d) s)
/-- STX Absolute, 0x8E (R174, R90). -/
def execStxAbs (w : Word) (s : State) : Host.Outcome State Fault Refusal := .next (stx (.absolute w) s)

/-- STY (R175): `MemWrite(ea, 1, Y)`; no flag, no register. -/
def sty (m : EaMode) (s : State) : State := s.set (s.ea m) s.y

/-- STY ZeroPage, 0x84 (R175, R87). -/
def execStyZp (d : Byte) (s : State) : Host.Outcome State Fault Refusal := .next (sty (.zeroPage d) s)
/-- STY ZeroPageX, 0x94 (R175, R88). -/
def execStyZpx (d : Byte) (s : State) : Host.Outcome State Fault Refusal := .next (sty (.zeroPageX d) s)
/-- STY Absolute, 0x8C (R175, R90). -/
def execStyAbs (w : Word) (s : State) : Host.Outcome State Fault Refusal := .next (sty (.absolute w) s)

end Sys2Proof.Machine
end

