-- ==== Sys2Proof/Machine/Logical.lean ====
section
/-! DEFINITION. AND, ORA and EOR (41_logical.md R135 to R137). -/

namespace Sys2Proof.Machine

/-- `A <- v; SetZN(A)`. -/
def logicalA (v : Byte) (s : State) : State := (s.setA v).writeZN v

/-- AND (R135): bitwise and of memory with accumulator. -/
def andA (m : EaMode) (s : State) : State := logicalA (s.a &&& s.operand m) s

/-- AND Immediate, 0x29 (R135, R86). -/
def execAndImm (d : Byte) (s : State) : Host.Outcome State Fault Refusal := .next (andA (.immediate d) s)
/-- AND ZeroPage, 0x25 (R135, R87). -/
def execAndZp (d : Byte) (s : State) : Host.Outcome State Fault Refusal := .next (andA (.zeroPage d) s)
/-- AND ZeroPageX, 0x35 (R135, R88). -/
def execAndZpx (d : Byte) (s : State) : Host.Outcome State Fault Refusal := .next (andA (.zeroPageX d) s)
/-- AND Absolute, 0x2D (R135, R90). -/
def execAndAbs (w : Word) (s : State) : Host.Outcome State Fault Refusal := .next (andA (.absolute w) s)
/-- AND AbsoluteX, 0x3D (R135, R91). -/
def execAndAbx (w : Word) (s : State) : Host.Outcome State Fault Refusal := .next (andA (.absoluteX w) s)
/-- AND AbsoluteY, 0x39 (R135, R92). -/
def execAndAby (w : Word) (s : State) : Host.Outcome State Fault Refusal := .next (andA (.absoluteY w) s)
/-- AND IndexedIndirect, 0x21 (R135, R94). -/
def execAndIzx (d : Byte) (s : State) : Host.Outcome State Fault Refusal := .next (andA (.indexedIndirect d) s)
/-- AND IndirectIndexed, 0x31 (R135, R95). -/
def execAndIzy (d : Byte) (s : State) : Host.Outcome State Fault Refusal := .next (andA (.indirectIndexed d) s)

/-- ORA (R136): bitwise inclusive or of memory with accumulator. -/
def oraA (m : EaMode) (s : State) : State := logicalA (s.a ||| s.operand m) s

/-- ORA Immediate, 0x09 (R136, R86). -/
def execOraImm (d : Byte) (s : State) : Host.Outcome State Fault Refusal := .next (oraA (.immediate d) s)
/-- ORA ZeroPage, 0x05 (R136, R87). -/
def execOraZp (d : Byte) (s : State) : Host.Outcome State Fault Refusal := .next (oraA (.zeroPage d) s)
/-- ORA ZeroPageX, 0x15 (R136, R88). -/
def execOraZpx (d : Byte) (s : State) : Host.Outcome State Fault Refusal := .next (oraA (.zeroPageX d) s)
/-- ORA Absolute, 0x0D (R136, R90). -/
def execOraAbs (w : Word) (s : State) : Host.Outcome State Fault Refusal := .next (oraA (.absolute w) s)
/-- ORA AbsoluteX, 0x1D (R136, R91). -/
def execOraAbx (w : Word) (s : State) : Host.Outcome State Fault Refusal := .next (oraA (.absoluteX w) s)
/-- ORA AbsoluteY, 0x19 (R136, R92). -/
def execOraAby (w : Word) (s : State) : Host.Outcome State Fault Refusal := .next (oraA (.absoluteY w) s)
/-- ORA IndexedIndirect, 0x01 (R136, R94). -/
def execOraIzx (d : Byte) (s : State) : Host.Outcome State Fault Refusal := .next (oraA (.indexedIndirect d) s)
/-- ORA IndirectIndexed, 0x11 (R136, R95). -/
def execOraIzy (d : Byte) (s : State) : Host.Outcome State Fault Refusal := .next (oraA (.indirectIndexed d) s)

/-- EOR (R137): bitwise exclusive or of memory with accumulator. -/
def eorA (m : EaMode) (s : State) : State := logicalA (s.a ^^^ s.operand m) s

/-- EOR Immediate, 0x49 (R137, R86). -/
def execEorImm (d : Byte) (s : State) : Host.Outcome State Fault Refusal := .next (eorA (.immediate d) s)
/-- EOR ZeroPage, 0x45 (R137, R87). -/
def execEorZp (d : Byte) (s : State) : Host.Outcome State Fault Refusal := .next (eorA (.zeroPage d) s)
/-- EOR ZeroPageX, 0x55 (R137, R88). -/
def execEorZpx (d : Byte) (s : State) : Host.Outcome State Fault Refusal := .next (eorA (.zeroPageX d) s)
/-- EOR Absolute, 0x4D (R137, R90). -/
def execEorAbs (w : Word) (s : State) : Host.Outcome State Fault Refusal := .next (eorA (.absolute w) s)
/-- EOR AbsoluteX, 0x5D (R137, R91). -/
def execEorAbx (w : Word) (s : State) : Host.Outcome State Fault Refusal := .next (eorA (.absoluteX w) s)
/-- EOR AbsoluteY, 0x59 (R137, R92). -/
def execEorAby (w : Word) (s : State) : Host.Outcome State Fault Refusal := .next (eorA (.absoluteY w) s)
/-- EOR IndexedIndirect, 0x41 (R137, R94). -/
def execEorIzx (d : Byte) (s : State) : Host.Outcome State Fault Refusal := .next (eorA (.indexedIndirect d) s)
/-- EOR IndirectIndexed, 0x51 (R137, R95). -/
def execEorIzy (d : Byte) (s : State) : Host.Outcome State Fault Refusal := .next (eorA (.indirectIndexed d) s)

end Sys2Proof.Machine
end

