-- ==== Sys2Proof/Machine/Shifts.lean ====
section
/-! DEFINITION. ASL, LSR, ROL and ROR, on the accumulator and on memory (42_shifts_rotates.md R140 to R143). -/

namespace Sys2Proof.Machine

/-- The common part: `r` from the operand, P.C the bit shifted out, `WriteOp(r)`, `SetZN(r)` (30_encoding.md R105). The
effective address is `none` in Accumulator mode. -/
def shiftOp (ea : Option Word) (result : Byte → Byte) (out : Byte → Bool) (s : State) : State :=
  let v := s.readOp ea
  let r := result v
  ((s.assign .carry (out v)).writeOp ea r).writeZN r

/-- ASL (R140): a 0 enters at bit 0, bit 7 goes to Carry. -/
def asl (ea : Option Word) (s : State) : State := shiftOp ea (fun v => v <<< 1) (fun v => v.getLsbD 7) s

/-- ASL Accumulator, 0x0A (R140, R85). -/
def execAslAcc (s : State) : Host.Outcome State Fault Refusal := .next (asl none s)
/-- ASL ZeroPage, 0x06 (R140, R87). -/
def execAslZp (d : Byte) (s : State) : Host.Outcome State Fault Refusal := .next (asl (some (s.ea (.zeroPage d))) s)
/-- ASL ZeroPageX, 0x16 (R140, R88). -/
def execAslZpx (d : Byte) (s : State) : Host.Outcome State Fault Refusal := .next (asl (some (s.ea (.zeroPageX d))) s)
/-- ASL Absolute, 0x0E (R140, R90). -/
def execAslAbs (w : Word) (s : State) : Host.Outcome State Fault Refusal := .next (asl (some (s.ea (.absolute w))) s)
/-- ASL AbsoluteX, 0x1E (R140, R91). -/
def execAslAbx (w : Word) (s : State) : Host.Outcome State Fault Refusal := .next (asl (some (s.ea (.absoluteX w))) s)

/-- LSR (R141): a 0 enters at bit 7, bit 0 goes to Carry. -/
def lsr (ea : Option Word) (s : State) : State := shiftOp ea (fun v => v >>> 1) (fun v => v.getLsbD 0) s

/-- LSR Accumulator, 0x4A (R141, R85). -/
def execLsrAcc (s : State) : Host.Outcome State Fault Refusal := .next (lsr none s)
/-- LSR ZeroPage, 0x46 (R141, R87). -/
def execLsrZp (d : Byte) (s : State) : Host.Outcome State Fault Refusal := .next (lsr (some (s.ea (.zeroPage d))) s)
/-- LSR ZeroPageX, 0x56 (R141, R88). -/
def execLsrZpx (d : Byte) (s : State) : Host.Outcome State Fault Refusal := .next (lsr (some (s.ea (.zeroPageX d))) s)
/-- LSR Absolute, 0x4E (R141, R90). -/
def execLsrAbs (w : Word) (s : State) : Host.Outcome State Fault Refusal := .next (lsr (some (s.ea (.absolute w))) s)
/-- LSR AbsoluteX, 0x5E (R141, R91). -/
def execLsrAbx (w : Word) (s : State) : Host.Outcome State Fault Refusal := .next (lsr (some (s.ea (.absoluteX w))) s)

/-- ROL (R142): the old Carry enters at bit 0, bit 7 goes to Carry. -/
def rol (ea : Option Word) (s : State) : State :=
  shiftOp ea (fun v => (v <<< 1) ||| BitVec.ofNat 8 s.carryIn) (fun v => v.getLsbD 7) s

/-- ROL Accumulator, 0x2A (R142, R85). -/
def execRolAcc (s : State) : Host.Outcome State Fault Refusal := .next (rol none s)
/-- ROL ZeroPage, 0x26 (R142, R87). -/
def execRolZp (d : Byte) (s : State) : Host.Outcome State Fault Refusal := .next (rol (some (s.ea (.zeroPage d))) s)
/-- ROL ZeroPageX, 0x36 (R142, R88). -/
def execRolZpx (d : Byte) (s : State) : Host.Outcome State Fault Refusal := .next (rol (some (s.ea (.zeroPageX d))) s)
/-- ROL Absolute, 0x2E (R142, R90). -/
def execRolAbs (w : Word) (s : State) : Host.Outcome State Fault Refusal := .next (rol (some (s.ea (.absolute w))) s)
/-- ROL AbsoluteX, 0x3E (R142, R91). -/
def execRolAbx (w : Word) (s : State) : Host.Outcome State Fault Refusal := .next (rol (some (s.ea (.absoluteX w))) s)

/-- ROR (R143): the old Carry enters at bit 7, bit 0 goes to Carry. -/
def ror (ea : Option Word) (s : State) : State :=
  shiftOp ea (fun v => (v >>> 1) ||| (BitVec.ofNat 8 s.carryIn <<< 7)) (fun v => v.getLsbD 0) s

/-- ROR Accumulator, 0x6A (R143, R85). -/
def execRorAcc (s : State) : Host.Outcome State Fault Refusal := .next (ror none s)
/-- ROR ZeroPage, 0x66 (R143, R87). -/
def execRorZp (d : Byte) (s : State) : Host.Outcome State Fault Refusal := .next (ror (some (s.ea (.zeroPage d))) s)
/-- ROR ZeroPageX, 0x76 (R143, R88). -/
def execRorZpx (d : Byte) (s : State) : Host.Outcome State Fault Refusal := .next (ror (some (s.ea (.zeroPageX d))) s)
/-- ROR Absolute, 0x6E (R143, R90). -/
def execRorAbs (w : Word) (s : State) : Host.Outcome State Fault Refusal := .next (ror (some (s.ea (.absolute w))) s)
/-- ROR AbsoluteX, 0x7E (R143, R91). -/
def execRorAbx (w : Word) (s : State) : Host.Outcome State Fault Refusal := .next (ror (some (s.ea (.absoluteX w))) s)

end Sys2Proof.Machine
end

