-- ==== Sys2Proof/Machine/TransfersStack.lean ====
section
/-! DEFINITION. Register transfers and the stack instructions (47_transfers_stack.md R180 to R189). -/

namespace Sys2Proof.Machine

/-- TAX Implied, 0xAA (R180, R84). -/
def execTax (s : State) : Host.Outcome State Fault Refusal := .next ((s.setX s.a).writeZN s.a)

/-- TAY Implied, 0xA8 (R181, R84). -/
def execTay (s : State) : Host.Outcome State Fault Refusal := .next ((s.setY s.a).writeZN s.a)

/-- TXA Implied, 0x8A (R182, R84). -/
def execTxa (s : State) : Host.Outcome State Fault Refusal := .next ((s.setA s.x).writeZN s.x)

/-- TYA Implied, 0x98 (R183, R84). -/
def execTya (s : State) : Host.Outcome State Fault Refusal := .next ((s.setA s.y).writeZN s.y)

/-- TSX Implied, 0xBA (R184, R84). -/
def execTsx (s : State) : Host.Outcome State Fault Refusal := .next ((s.setX s.sp).writeZN s.sp)

/-- TXS Implied, 0x9A (R185, R84). -/
def execTxs (s : State) : Host.Outcome State Fault Refusal := .next (s.setSP s.x)

/-- PHA Implied, 0x48 (R186, R84). -/
def execPha (s : State) : Host.Outcome State Fault Refusal := .next (s.push8 s.a)

/-- PHP Implied, 0x08 (R187, R84). -/
def execPhp (s : State) : Host.Outcome State Fault Refusal := .next (s.push8 (pushedStatus s.p))

/-- PLA Implied, 0x68 (R188, R84). -/
def execPla (s : State) : Host.Outcome State Fault Refusal := .next ((s.popped.setA s.top8).writeZN s.top8)

/-- PLP Implied, 0x28 (R189, R84). -/
def execPlp (s : State) : Host.Outcome State Fault Refusal := .next (s.popped.setP s.top8)

end Sys2Proof.Machine
end

