-- ==== Sys2Proof/Decode.lean ====
section
/-! DEFINITION. The opcode table, the decoder and the encoder (30_encoding.md R80 to R82, R97, R100 to R102). -/

namespace Sys2Proof

/-- The instruction length of a mode (R82). -/
def Mode.length : Mode → Nat
  | .implied => 1
  | .accumulator => 1
  | .immediate => 2
  | .zeroPage => 2
  | .zeroPageX => 2
  | .zeroPageY => 2
  | .indexedIndirect => 2
  | .indirectIndexed => 2
  | .relative => 2
  | .absolute => 3
  | .absoluteX => 3
  | .absoluteY => 3
  | .indirect => 3

/-- The mode tag of an effective-address mode. -/
def EaMode.mode : EaMode → Mode
  | .immediate _ => .immediate
  | .zeroPage _ => .zeroPage
  | .zeroPageX _ => .zeroPageX
  | .zeroPageY _ => .zeroPageY
  | .absolute _ => .absolute
  | .absoluteX _ => .absoluteX
  | .absoluteY _ => .absoluteY
  | .indirect _ => .indirect
  | .indexedIndirect _ => .indexedIndirect
  | .indirectIndexed _ => .indirectIndexed
  | .relative _ => .relative

/-- The mode tag of an operand. -/
def Operand.mode : Operand → Mode
  | .implied => .implied
  | .accumulator => .accumulator
  | .at m => m.mode

/-- The operand bytes of an effective-address mode, in the order they stand in memory (R80, R97). -/
def EaMode.bytes : EaMode → List Byte
  | .immediate d => [d]
  | .zeroPage d => [d]
  | .zeroPageX d => [d]
  | .zeroPageY d => [d]
  | .absolute w => [lo8 w, hi8 w]
  | .absoluteX w => [lo8 w, hi8 w]
  | .absoluteY w => [lo8 w, hi8 w]
  | .indirect w => [lo8 w, hi8 w]
  | .indexedIndirect d => [d]
  | .indirectIndexed d => [d]
  | .relative off => [offsetByte off]

/-- The operand bytes of an instruction. -/
def Operand.bytes : Operand → List Byte
  | .implied => []
  | .accumulator => []
  | .at m => m.bytes

/-! ## The three views of an instruction: mnemonic, operand, opcode byte (R100) -/

/-- The mnemonic of an instruction (R100). -/
def Instr.mnemonic : Instr → Mnemonic
  | .adcImm _ | .adcZp _ | .adcZpx _ | .adcAbs _ | .adcAbx _ | .adcAby _ | .adcIzx _ | .adcIzy _ => .adc
  | .sbcImm _ | .sbcZp _ | .sbcZpx _ | .sbcAbs _ | .sbcAbx _ | .sbcAby _ | .sbcIzx _ | .sbcIzy _ => .sbc
  | .andImm _ | .andZp _ | .andZpx _ | .andAbs _ | .andAbx _ | .andAby _ | .andIzx _ | .andIzy _ => .and
  | .oraImm _ | .oraZp _ | .oraZpx _ | .oraAbs _ | .oraAbx _ | .oraAby _ | .oraIzx _ | .oraIzy _ => .ora
  | .eorImm _ | .eorZp _ | .eorZpx _ | .eorAbs _ | .eorAbx _ | .eorAby _ | .eorIzx _ | .eorIzy _ => .eor
  | .aslAcc | .aslZp _ | .aslZpx _ | .aslAbs _ | .aslAbx _ => .asl
  | .lsrAcc | .lsrZp _ | .lsrZpx _ | .lsrAbs _ | .lsrAbx _ => .lsr
  | .rolAcc | .rolZp _ | .rolZpx _ | .rolAbs _ | .rolAbx _ => .rol
  | .rorAcc | .rorZp _ | .rorZpx _ | .rorAbs _ | .rorAbx _ => .ror
  | .cmpImm _ | .cmpZp _ | .cmpZpx _ | .cmpAbs _ | .cmpAbx _ | .cmpAby _ | .cmpIzx _ | .cmpIzy _ => .cmp
  | .cpxImm _ | .cpxZp _ | .cpxAbs _ => .cpx
  | .cpyImm _ | .cpyZp _ | .cpyAbs _ => .cpy
  | .bpl _ => .bpl
  | .bmi _ => .bmi
  | .bvc _ => .bvc
  | .bvs _ => .bvs
  | .bcc _ => .bcc
  | .bcs _ => .bcs
  | .bne _ => .bne
  | .beq _ => .beq
  | .incZp _ | .incZpx _ | .incAbs _ | .incAbx _ => .inc
  | .decZp _ | .decZpx _ | .decAbs _ | .decAbx _ => .dec
  | .inx => .inx
  | .iny => .iny
  | .dex => .dex
  | .dey => .dey
  | .ldaImm _ | .ldaZp _ | .ldaZpx _ | .ldaAbs _ | .ldaAbx _ | .ldaAby _ | .ldaIzx _ | .ldaIzy _ => .lda
  | .ldxImm _ | .ldxZp _ | .ldxZpy _ | .ldxAbs _ | .ldxAby _ => .ldx
  | .ldyImm _ | .ldyZp _ | .ldyZpx _ | .ldyAbs _ | .ldyAbx _ => .ldy
  | .staZp _ | .staZpx _ | .staAbs _ | .staAbx _ | .staAby _ | .staIzx _ | .staIzy _ => .sta
  | .stxZp _ | .stxZpy _ | .stxAbs _ => .stx
  | .styZp _ | .styZpx _ | .styAbs _ => .sty
  | .tax => .tax
  | .tay => .tay
  | .txa => .txa
  | .tya => .tya
  | .tsx => .tsx
  | .txs => .txs
  | .pha => .pha
  | .php => .php
  | .pla => .pla
  | .plp => .plp
  | .jmpAbs _ | .jmpInd _ => .jmp
  | .jsr _ => .jsr
  | .rts => .rts
  | .rti => .rti
  | .brk => .brk
  | .nop => .nop
  | .clc => .clc
  | .sec => .sec
  | .cli => .cli
  | .sei => .sei
  | .clv => .clv
  | .cld => .cld
  | .sed => .sed
  | .bitZp _ | .bitAbs _ => .bit

/-- The operand of an instruction, in its mode (R100). -/
def Instr.operand : Instr → Operand
  | .adcImm d => .at (.immediate d)
  | .adcZp d => .at (.zeroPage d)
  | .adcZpx d => .at (.zeroPageX d)
  | .adcAbs w => .at (.absolute w)
  | .adcAbx w => .at (.absoluteX w)
  | .adcAby w => .at (.absoluteY w)
  | .adcIzx d => .at (.indexedIndirect d)
  | .adcIzy d => .at (.indirectIndexed d)
  | .sbcImm d => .at (.immediate d)
  | .sbcZp d => .at (.zeroPage d)
  | .sbcZpx d => .at (.zeroPageX d)
  | .sbcAbs w => .at (.absolute w)
  | .sbcAbx w => .at (.absoluteX w)
  | .sbcAby w => .at (.absoluteY w)
  | .sbcIzx d => .at (.indexedIndirect d)
  | .sbcIzy d => .at (.indirectIndexed d)
  | .andImm d => .at (.immediate d)
  | .andZp d => .at (.zeroPage d)
  | .andZpx d => .at (.zeroPageX d)
  | .andAbs w => .at (.absolute w)
  | .andAbx w => .at (.absoluteX w)
  | .andAby w => .at (.absoluteY w)
  | .andIzx d => .at (.indexedIndirect d)
  | .andIzy d => .at (.indirectIndexed d)
  | .oraImm d => .at (.immediate d)
  | .oraZp d => .at (.zeroPage d)
  | .oraZpx d => .at (.zeroPageX d)
  | .oraAbs w => .at (.absolute w)
  | .oraAbx w => .at (.absoluteX w)
  | .oraAby w => .at (.absoluteY w)
  | .oraIzx d => .at (.indexedIndirect d)
  | .oraIzy d => .at (.indirectIndexed d)
  | .eorImm d => .at (.immediate d)
  | .eorZp d => .at (.zeroPage d)
  | .eorZpx d => .at (.zeroPageX d)
  | .eorAbs w => .at (.absolute w)
  | .eorAbx w => .at (.absoluteX w)
  | .eorAby w => .at (.absoluteY w)
  | .eorIzx d => .at (.indexedIndirect d)
  | .eorIzy d => .at (.indirectIndexed d)
  | .aslAcc => .accumulator
  | .aslZp d => .at (.zeroPage d)
  | .aslZpx d => .at (.zeroPageX d)
  | .aslAbs w => .at (.absolute w)
  | .aslAbx w => .at (.absoluteX w)
  | .lsrAcc => .accumulator
  | .lsrZp d => .at (.zeroPage d)
  | .lsrZpx d => .at (.zeroPageX d)
  | .lsrAbs w => .at (.absolute w)
  | .lsrAbx w => .at (.absoluteX w)
  | .rolAcc => .accumulator
  | .rolZp d => .at (.zeroPage d)
  | .rolZpx d => .at (.zeroPageX d)
  | .rolAbs w => .at (.absolute w)
  | .rolAbx w => .at (.absoluteX w)
  | .rorAcc => .accumulator
  | .rorZp d => .at (.zeroPage d)
  | .rorZpx d => .at (.zeroPageX d)
  | .rorAbs w => .at (.absolute w)
  | .rorAbx w => .at (.absoluteX w)
  | .cmpImm d => .at (.immediate d)
  | .cmpZp d => .at (.zeroPage d)
  | .cmpZpx d => .at (.zeroPageX d)
  | .cmpAbs w => .at (.absolute w)
  | .cmpAbx w => .at (.absoluteX w)
  | .cmpAby w => .at (.absoluteY w)
  | .cmpIzx d => .at (.indexedIndirect d)
  | .cmpIzy d => .at (.indirectIndexed d)
  | .cpxImm d => .at (.immediate d)
  | .cpxZp d => .at (.zeroPage d)
  | .cpxAbs w => .at (.absolute w)
  | .cpyImm d => .at (.immediate d)
  | .cpyZp d => .at (.zeroPage d)
  | .cpyAbs w => .at (.absolute w)
  | .bpl off => .at (.relative off)
  | .bmi off => .at (.relative off)
  | .bvc off => .at (.relative off)
  | .bvs off => .at (.relative off)
  | .bcc off => .at (.relative off)
  | .bcs off => .at (.relative off)
  | .bne off => .at (.relative off)
  | .beq off => .at (.relative off)
  | .incZp d => .at (.zeroPage d)
  | .incZpx d => .at (.zeroPageX d)
  | .incAbs w => .at (.absolute w)
  | .incAbx w => .at (.absoluteX w)
  | .decZp d => .at (.zeroPage d)
  | .decZpx d => .at (.zeroPageX d)
  | .decAbs w => .at (.absolute w)
  | .decAbx w => .at (.absoluteX w)
  | .inx => .implied
  | .iny => .implied
  | .dex => .implied
  | .dey => .implied
  | .ldaImm d => .at (.immediate d)
  | .ldaZp d => .at (.zeroPage d)
  | .ldaZpx d => .at (.zeroPageX d)
  | .ldaAbs w => .at (.absolute w)
  | .ldaAbx w => .at (.absoluteX w)
  | .ldaAby w => .at (.absoluteY w)
  | .ldaIzx d => .at (.indexedIndirect d)
  | .ldaIzy d => .at (.indirectIndexed d)
  | .ldxImm d => .at (.immediate d)
  | .ldxZp d => .at (.zeroPage d)
  | .ldxZpy d => .at (.zeroPageY d)
  | .ldxAbs w => .at (.absolute w)
  | .ldxAby w => .at (.absoluteY w)
  | .ldyImm d => .at (.immediate d)
  | .ldyZp d => .at (.zeroPage d)
  | .ldyZpx d => .at (.zeroPageX d)
  | .ldyAbs w => .at (.absolute w)
  | .ldyAbx w => .at (.absoluteX w)
  | .staZp d => .at (.zeroPage d)
  | .staZpx d => .at (.zeroPageX d)
  | .staAbs w => .at (.absolute w)
  | .staAbx w => .at (.absoluteX w)
  | .staAby w => .at (.absoluteY w)
  | .staIzx d => .at (.indexedIndirect d)
  | .staIzy d => .at (.indirectIndexed d)
  | .stxZp d => .at (.zeroPage d)
  | .stxZpy d => .at (.zeroPageY d)
  | .stxAbs w => .at (.absolute w)
  | .styZp d => .at (.zeroPage d)
  | .styZpx d => .at (.zeroPageX d)
  | .styAbs w => .at (.absolute w)
  | .tax => .implied
  | .tay => .implied
  | .txa => .implied
  | .tya => .implied
  | .tsx => .implied
  | .txs => .implied
  | .pha => .implied
  | .php => .implied
  | .pla => .implied
  | .plp => .implied
  | .jmpAbs w => .at (.absolute w)
  | .jmpInd w => .at (.indirect w)
  | .jsr w => .at (.absolute w)
  | .rts => .implied
  | .rti => .implied
  | .brk => .implied
  | .nop => .implied
  | .clc => .implied
  | .sec => .implied
  | .cli => .implied
  | .sei => .implied
  | .clv => .implied
  | .cld => .implied
  | .sed => .implied
  | .bitZp d => .at (.zeroPage d)
  | .bitAbs w => .at (.absolute w)

/-- The opcode byte of an instruction (R100). -/
def Instr.opcode : Instr → Byte
  | .adcImm _ => 0x69#8
  | .adcZp _ => 0x65#8
  | .adcZpx _ => 0x75#8
  | .adcAbs _ => 0x6D#8
  | .adcAbx _ => 0x7D#8
  | .adcAby _ => 0x79#8
  | .adcIzx _ => 0x61#8
  | .adcIzy _ => 0x71#8
  | .sbcImm _ => 0xE9#8
  | .sbcZp _ => 0xE5#8
  | .sbcZpx _ => 0xF5#8
  | .sbcAbs _ => 0xED#8
  | .sbcAbx _ => 0xFD#8
  | .sbcAby _ => 0xF9#8
  | .sbcIzx _ => 0xE1#8
  | .sbcIzy _ => 0xF1#8
  | .andImm _ => 0x29#8
  | .andZp _ => 0x25#8
  | .andZpx _ => 0x35#8
  | .andAbs _ => 0x2D#8
  | .andAbx _ => 0x3D#8
  | .andAby _ => 0x39#8
  | .andIzx _ => 0x21#8
  | .andIzy _ => 0x31#8
  | .oraImm _ => 0x09#8
  | .oraZp _ => 0x05#8
  | .oraZpx _ => 0x15#8
  | .oraAbs _ => 0x0D#8
  | .oraAbx _ => 0x1D#8
  | .oraAby _ => 0x19#8
  | .oraIzx _ => 0x01#8
  | .oraIzy _ => 0x11#8
  | .eorImm _ => 0x49#8
  | .eorZp _ => 0x45#8
  | .eorZpx _ => 0x55#8
  | .eorAbs _ => 0x4D#8
  | .eorAbx _ => 0x5D#8
  | .eorAby _ => 0x59#8
  | .eorIzx _ => 0x41#8
  | .eorIzy _ => 0x51#8
  | .aslAcc => 0x0A#8
  | .aslZp _ => 0x06#8
  | .aslZpx _ => 0x16#8
  | .aslAbs _ => 0x0E#8
  | .aslAbx _ => 0x1E#8
  | .lsrAcc => 0x4A#8
  | .lsrZp _ => 0x46#8
  | .lsrZpx _ => 0x56#8
  | .lsrAbs _ => 0x4E#8
  | .lsrAbx _ => 0x5E#8
  | .rolAcc => 0x2A#8
  | .rolZp _ => 0x26#8
  | .rolZpx _ => 0x36#8
  | .rolAbs _ => 0x2E#8
  | .rolAbx _ => 0x3E#8
  | .rorAcc => 0x6A#8
  | .rorZp _ => 0x66#8
  | .rorZpx _ => 0x76#8
  | .rorAbs _ => 0x6E#8
  | .rorAbx _ => 0x7E#8
  | .cmpImm _ => 0xC9#8
  | .cmpZp _ => 0xC5#8
  | .cmpZpx _ => 0xD5#8
  | .cmpAbs _ => 0xCD#8
  | .cmpAbx _ => 0xDD#8
  | .cmpAby _ => 0xD9#8
  | .cmpIzx _ => 0xC1#8
  | .cmpIzy _ => 0xD1#8
  | .cpxImm _ => 0xE0#8
  | .cpxZp _ => 0xE4#8
  | .cpxAbs _ => 0xEC#8
  | .cpyImm _ => 0xC0#8
  | .cpyZp _ => 0xC4#8
  | .cpyAbs _ => 0xCC#8
  | .bpl _ => 0x10#8
  | .bmi _ => 0x30#8
  | .bvc _ => 0x50#8
  | .bvs _ => 0x70#8
  | .bcc _ => 0x90#8
  | .bcs _ => 0xB0#8
  | .bne _ => 0xD0#8
  | .beq _ => 0xF0#8
  | .incZp _ => 0xE6#8
  | .incZpx _ => 0xF6#8
  | .incAbs _ => 0xEE#8
  | .incAbx _ => 0xFE#8
  | .decZp _ => 0xC6#8
  | .decZpx _ => 0xD6#8
  | .decAbs _ => 0xCE#8
  | .decAbx _ => 0xDE#8
  | .inx => 0xE8#8
  | .iny => 0xC8#8
  | .dex => 0xCA#8
  | .dey => 0x88#8
  | .ldaImm _ => 0xA9#8
  | .ldaZp _ => 0xA5#8
  | .ldaZpx _ => 0xB5#8
  | .ldaAbs _ => 0xAD#8
  | .ldaAbx _ => 0xBD#8
  | .ldaAby _ => 0xB9#8
  | .ldaIzx _ => 0xA1#8
  | .ldaIzy _ => 0xB1#8
  | .ldxImm _ => 0xA2#8
  | .ldxZp _ => 0xA6#8
  | .ldxZpy _ => 0xB6#8
  | .ldxAbs _ => 0xAE#8
  | .ldxAby _ => 0xBE#8
  | .ldyImm _ => 0xA0#8
  | .ldyZp _ => 0xA4#8
  | .ldyZpx _ => 0xB4#8
  | .ldyAbs _ => 0xAC#8
  | .ldyAbx _ => 0xBC#8
  | .staZp _ => 0x85#8
  | .staZpx _ => 0x95#8
  | .staAbs _ => 0x8D#8
  | .staAbx _ => 0x9D#8
  | .staAby _ => 0x99#8
  | .staIzx _ => 0x81#8
  | .staIzy _ => 0x91#8
  | .stxZp _ => 0x86#8
  | .stxZpy _ => 0x96#8
  | .stxAbs _ => 0x8E#8
  | .styZp _ => 0x84#8
  | .styZpx _ => 0x94#8
  | .styAbs _ => 0x8C#8
  | .tax => 0xAA#8
  | .tay => 0xA8#8
  | .txa => 0x8A#8
  | .tya => 0x98#8
  | .tsx => 0xBA#8
  | .txs => 0x9A#8
  | .pha => 0x48#8
  | .php => 0x08#8
  | .pla => 0x68#8
  | .plp => 0x28#8
  | .jmpAbs _ => 0x4C#8
  | .jmpInd _ => 0x6C#8
  | .jsr _ => 0x20#8
  | .rts => 0x60#8
  | .rti => 0x40#8
  | .brk => 0x00#8
  | .nop => 0xEA#8
  | .clc => 0x18#8
  | .sec => 0x38#8
  | .cli => 0x58#8
  | .sei => 0x78#8
  | .clv => 0xB8#8
  | .cld => 0xD8#8
  | .sed => 0xF8#8
  | .bitZp _ => 0x24#8
  | .bitAbs _ => 0x2C#8

/-- The addressing mode of an instruction. -/
def Instr.mode (i : Instr) : Mode := i.operand.mode

/-- The length of an instruction in bytes: a function of its mode alone (R82). -/
def Instr.length (i : Instr) : Nat := i.mode.length

/-! ## The opcode table (R81, R100) -/

/-- One assigned entry of the table: the descriptor of R81 with its opcode byte, and the instruction it makes of the
byte at `pc0 + 1` and the byte at `pc0 + 2` (a shorter instruction ignores what it does not have). -/
structure OpcodeRow where
  opcode : Byte
  mnemonic : Mnemonic
  mode : Mode
  baseCycles : Nat
  pagePenalty : Bool
  build : Byte → Byte → Instr

/-- No operand byte: format F1. -/
def noOperand (i : Instr) (_ _ : Byte) : Instr := i
/-- One operand byte: format F2. -/
def byteOperand (f : Byte → Instr) (d _ : Byte) : Instr := f d
/-- Two operand bytes, low byte first: format F3 (R97). -/
def wordOperand (f : Word → Instr) (l h : Byte) : Instr := f (pair h l)
/-- One operand byte read as a signed offset (R96, R97). -/
def offsetOperand (f : Int → Instr) (d _ : Byte) : Instr := f (signedOffset d)

/-- The rows of 40_arithmetic.md. -/
def opcodesArithmetic : List OpcodeRow :=
  [
    ⟨0x69#8, .adc, .immediate, 2, false, byteOperand .adcImm⟩,
    ⟨0x65#8, .adc, .zeroPage, 3, false, byteOperand .adcZp⟩,
    ⟨0x75#8, .adc, .zeroPageX, 4, false, byteOperand .adcZpx⟩,
    ⟨0x6D#8, .adc, .absolute, 4, false, wordOperand .adcAbs⟩,
    ⟨0x7D#8, .adc, .absoluteX, 4, true, wordOperand .adcAbx⟩,
    ⟨0x79#8, .adc, .absoluteY, 4, true, wordOperand .adcAby⟩,
    ⟨0x61#8, .adc, .indexedIndirect, 6, false, byteOperand .adcIzx⟩,
    ⟨0x71#8, .adc, .indirectIndexed, 5, true, byteOperand .adcIzy⟩,
    ⟨0xE9#8, .sbc, .immediate, 2, false, byteOperand .sbcImm⟩,
    ⟨0xE5#8, .sbc, .zeroPage, 3, false, byteOperand .sbcZp⟩,
    ⟨0xF5#8, .sbc, .zeroPageX, 4, false, byteOperand .sbcZpx⟩,
    ⟨0xED#8, .sbc, .absolute, 4, false, wordOperand .sbcAbs⟩]
  ++ [
    ⟨0xFD#8, .sbc, .absoluteX, 4, true, wordOperand .sbcAbx⟩,
    ⟨0xF9#8, .sbc, .absoluteY, 4, true, wordOperand .sbcAby⟩,
    ⟨0xE1#8, .sbc, .indexedIndirect, 6, false, byteOperand .sbcIzx⟩,
    ⟨0xF1#8, .sbc, .indirectIndexed, 5, true, byteOperand .sbcIzy⟩]

/-- The rows of 41_logical.md. -/
def opcodesLogical : List OpcodeRow :=
  [
    ⟨0x29#8, .and, .immediate, 2, false, byteOperand .andImm⟩,
    ⟨0x25#8, .and, .zeroPage, 3, false, byteOperand .andZp⟩,
    ⟨0x35#8, .and, .zeroPageX, 4, false, byteOperand .andZpx⟩,
    ⟨0x2D#8, .and, .absolute, 4, false, wordOperand .andAbs⟩,
    ⟨0x3D#8, .and, .absoluteX, 4, true, wordOperand .andAbx⟩,
    ⟨0x39#8, .and, .absoluteY, 4, true, wordOperand .andAby⟩,
    ⟨0x21#8, .and, .indexedIndirect, 6, false, byteOperand .andIzx⟩,
    ⟨0x31#8, .and, .indirectIndexed, 5, true, byteOperand .andIzy⟩,
    ⟨0x09#8, .ora, .immediate, 2, false, byteOperand .oraImm⟩,
    ⟨0x05#8, .ora, .zeroPage, 3, false, byteOperand .oraZp⟩,
    ⟨0x15#8, .ora, .zeroPageX, 4, false, byteOperand .oraZpx⟩,
    ⟨0x0D#8, .ora, .absolute, 4, false, wordOperand .oraAbs⟩]
  ++ [
    ⟨0x1D#8, .ora, .absoluteX, 4, true, wordOperand .oraAbx⟩,
    ⟨0x19#8, .ora, .absoluteY, 4, true, wordOperand .oraAby⟩,
    ⟨0x01#8, .ora, .indexedIndirect, 6, false, byteOperand .oraIzx⟩,
    ⟨0x11#8, .ora, .indirectIndexed, 5, true, byteOperand .oraIzy⟩,
    ⟨0x49#8, .eor, .immediate, 2, false, byteOperand .eorImm⟩,
    ⟨0x45#8, .eor, .zeroPage, 3, false, byteOperand .eorZp⟩,
    ⟨0x55#8, .eor, .zeroPageX, 4, false, byteOperand .eorZpx⟩,
    ⟨0x4D#8, .eor, .absolute, 4, false, wordOperand .eorAbs⟩,
    ⟨0x5D#8, .eor, .absoluteX, 4, true, wordOperand .eorAbx⟩,
    ⟨0x59#8, .eor, .absoluteY, 4, true, wordOperand .eorAby⟩,
    ⟨0x41#8, .eor, .indexedIndirect, 6, false, byteOperand .eorIzx⟩,
    ⟨0x51#8, .eor, .indirectIndexed, 5, true, byteOperand .eorIzy⟩]

/-- The rows of 42_shifts_rotates.md. -/
def opcodesShifts : List OpcodeRow :=
  [
    ⟨0x0A#8, .asl, .accumulator, 2, false, noOperand .aslAcc⟩,
    ⟨0x06#8, .asl, .zeroPage, 5, false, byteOperand .aslZp⟩,
    ⟨0x16#8, .asl, .zeroPageX, 6, false, byteOperand .aslZpx⟩,
    ⟨0x0E#8, .asl, .absolute, 6, false, wordOperand .aslAbs⟩,
    ⟨0x1E#8, .asl, .absoluteX, 7, false, wordOperand .aslAbx⟩,
    ⟨0x4A#8, .lsr, .accumulator, 2, false, noOperand .lsrAcc⟩,
    ⟨0x46#8, .lsr, .zeroPage, 5, false, byteOperand .lsrZp⟩,
    ⟨0x56#8, .lsr, .zeroPageX, 6, false, byteOperand .lsrZpx⟩,
    ⟨0x4E#8, .lsr, .absolute, 6, false, wordOperand .lsrAbs⟩,
    ⟨0x5E#8, .lsr, .absoluteX, 7, false, wordOperand .lsrAbx⟩,
    ⟨0x2A#8, .rol, .accumulator, 2, false, noOperand .rolAcc⟩,
    ⟨0x26#8, .rol, .zeroPage, 5, false, byteOperand .rolZp⟩]
  ++ [
    ⟨0x36#8, .rol, .zeroPageX, 6, false, byteOperand .rolZpx⟩,
    ⟨0x2E#8, .rol, .absolute, 6, false, wordOperand .rolAbs⟩,
    ⟨0x3E#8, .rol, .absoluteX, 7, false, wordOperand .rolAbx⟩,
    ⟨0x6A#8, .ror, .accumulator, 2, false, noOperand .rorAcc⟩,
    ⟨0x66#8, .ror, .zeroPage, 5, false, byteOperand .rorZp⟩,
    ⟨0x76#8, .ror, .zeroPageX, 6, false, byteOperand .rorZpx⟩,
    ⟨0x6E#8, .ror, .absolute, 6, false, wordOperand .rorAbs⟩,
    ⟨0x7E#8, .ror, .absoluteX, 7, false, wordOperand .rorAbx⟩]

/-- The rows of 43_compares.md. -/
def opcodesCompares : List OpcodeRow :=
  [
    ⟨0xC9#8, .cmp, .immediate, 2, false, byteOperand .cmpImm⟩,
    ⟨0xC5#8, .cmp, .zeroPage, 3, false, byteOperand .cmpZp⟩,
    ⟨0xD5#8, .cmp, .zeroPageX, 4, false, byteOperand .cmpZpx⟩,
    ⟨0xCD#8, .cmp, .absolute, 4, false, wordOperand .cmpAbs⟩,
    ⟨0xDD#8, .cmp, .absoluteX, 4, true, wordOperand .cmpAbx⟩,
    ⟨0xD9#8, .cmp, .absoluteY, 4, true, wordOperand .cmpAby⟩,
    ⟨0xC1#8, .cmp, .indexedIndirect, 6, false, byteOperand .cmpIzx⟩,
    ⟨0xD1#8, .cmp, .indirectIndexed, 5, true, byteOperand .cmpIzy⟩,
    ⟨0xE0#8, .cpx, .immediate, 2, false, byteOperand .cpxImm⟩,
    ⟨0xE4#8, .cpx, .zeroPage, 3, false, byteOperand .cpxZp⟩,
    ⟨0xEC#8, .cpx, .absolute, 4, false, wordOperand .cpxAbs⟩,
    ⟨0xC0#8, .cpy, .immediate, 2, false, byteOperand .cpyImm⟩]
  ++ [
    ⟨0xC4#8, .cpy, .zeroPage, 3, false, byteOperand .cpyZp⟩,
    ⟨0xCC#8, .cpy, .absolute, 4, false, wordOperand .cpyAbs⟩]

/-- The rows of 44_branches.md. -/
def opcodesBranches : List OpcodeRow :=
  [
    ⟨0x10#8, .bpl, .relative, 2, false, offsetOperand .bpl⟩,
    ⟨0x30#8, .bmi, .relative, 2, false, offsetOperand .bmi⟩,
    ⟨0x50#8, .bvc, .relative, 2, false, offsetOperand .bvc⟩,
    ⟨0x70#8, .bvs, .relative, 2, false, offsetOperand .bvs⟩,
    ⟨0x90#8, .bcc, .relative, 2, false, offsetOperand .bcc⟩,
    ⟨0xB0#8, .bcs, .relative, 2, false, offsetOperand .bcs⟩,
    ⟨0xD0#8, .bne, .relative, 2, false, offsetOperand .bne⟩,
    ⟨0xF0#8, .beq, .relative, 2, false, offsetOperand .beq⟩]

/-- The rows of 45_incdec.md. -/
def opcodesIncDec : List OpcodeRow :=
  [
    ⟨0xE6#8, .inc, .zeroPage, 5, false, byteOperand .incZp⟩,
    ⟨0xF6#8, .inc, .zeroPageX, 6, false, byteOperand .incZpx⟩,
    ⟨0xEE#8, .inc, .absolute, 6, false, wordOperand .incAbs⟩,
    ⟨0xFE#8, .inc, .absoluteX, 7, false, wordOperand .incAbx⟩,
    ⟨0xC6#8, .dec, .zeroPage, 5, false, byteOperand .decZp⟩,
    ⟨0xD6#8, .dec, .zeroPageX, 6, false, byteOperand .decZpx⟩,
    ⟨0xCE#8, .dec, .absolute, 6, false, wordOperand .decAbs⟩,
    ⟨0xDE#8, .dec, .absoluteX, 7, false, wordOperand .decAbx⟩,
    ⟨0xE8#8, .inx, .implied, 2, false, noOperand .inx⟩,
    ⟨0xC8#8, .iny, .implied, 2, false, noOperand .iny⟩,
    ⟨0xCA#8, .dex, .implied, 2, false, noOperand .dex⟩,
    ⟨0x88#8, .dey, .implied, 2, false, noOperand .dey⟩]

/-- The rows of 46_load_store.md. -/
def opcodesLoadStore : List OpcodeRow :=
  [
    ⟨0xA9#8, .lda, .immediate, 2, false, byteOperand .ldaImm⟩,
    ⟨0xA5#8, .lda, .zeroPage, 3, false, byteOperand .ldaZp⟩,
    ⟨0xB5#8, .lda, .zeroPageX, 4, false, byteOperand .ldaZpx⟩,
    ⟨0xAD#8, .lda, .absolute, 4, false, wordOperand .ldaAbs⟩,
    ⟨0xBD#8, .lda, .absoluteX, 4, true, wordOperand .ldaAbx⟩,
    ⟨0xB9#8, .lda, .absoluteY, 4, true, wordOperand .ldaAby⟩,
    ⟨0xA1#8, .lda, .indexedIndirect, 6, false, byteOperand .ldaIzx⟩,
    ⟨0xB1#8, .lda, .indirectIndexed, 5, true, byteOperand .ldaIzy⟩,
    ⟨0xA2#8, .ldx, .immediate, 2, false, byteOperand .ldxImm⟩,
    ⟨0xA6#8, .ldx, .zeroPage, 3, false, byteOperand .ldxZp⟩,
    ⟨0xB6#8, .ldx, .zeroPageY, 4, false, byteOperand .ldxZpy⟩,
    ⟨0xAE#8, .ldx, .absolute, 4, false, wordOperand .ldxAbs⟩]
  ++ [
    ⟨0xBE#8, .ldx, .absoluteY, 4, true, wordOperand .ldxAby⟩,
    ⟨0xA0#8, .ldy, .immediate, 2, false, byteOperand .ldyImm⟩,
    ⟨0xA4#8, .ldy, .zeroPage, 3, false, byteOperand .ldyZp⟩,
    ⟨0xB4#8, .ldy, .zeroPageX, 4, false, byteOperand .ldyZpx⟩,
    ⟨0xAC#8, .ldy, .absolute, 4, false, wordOperand .ldyAbs⟩,
    ⟨0xBC#8, .ldy, .absoluteX, 4, true, wordOperand .ldyAbx⟩,
    ⟨0x85#8, .sta, .zeroPage, 3, false, byteOperand .staZp⟩,
    ⟨0x95#8, .sta, .zeroPageX, 4, false, byteOperand .staZpx⟩,
    ⟨0x8D#8, .sta, .absolute, 4, false, wordOperand .staAbs⟩,
    ⟨0x9D#8, .sta, .absoluteX, 5, false, wordOperand .staAbx⟩,
    ⟨0x99#8, .sta, .absoluteY, 5, false, wordOperand .staAby⟩,
    ⟨0x81#8, .sta, .indexedIndirect, 6, false, byteOperand .staIzx⟩]
  ++ [
    ⟨0x91#8, .sta, .indirectIndexed, 6, false, byteOperand .staIzy⟩,
    ⟨0x86#8, .stx, .zeroPage, 3, false, byteOperand .stxZp⟩,
    ⟨0x96#8, .stx, .zeroPageY, 4, false, byteOperand .stxZpy⟩,
    ⟨0x8E#8, .stx, .absolute, 4, false, wordOperand .stxAbs⟩,
    ⟨0x84#8, .sty, .zeroPage, 3, false, byteOperand .styZp⟩,
    ⟨0x94#8, .sty, .zeroPageX, 4, false, byteOperand .styZpx⟩,
    ⟨0x8C#8, .sty, .absolute, 4, false, wordOperand .styAbs⟩]

/-- The rows of 47_transfers_stack.md. -/
def opcodesTransfersStack : List OpcodeRow :=
  [
    ⟨0xAA#8, .tax, .implied, 2, false, noOperand .tax⟩,
    ⟨0xA8#8, .tay, .implied, 2, false, noOperand .tay⟩,
    ⟨0x8A#8, .txa, .implied, 2, false, noOperand .txa⟩,
    ⟨0x98#8, .tya, .implied, 2, false, noOperand .tya⟩,
    ⟨0xBA#8, .tsx, .implied, 2, false, noOperand .tsx⟩,
    ⟨0x9A#8, .txs, .implied, 2, false, noOperand .txs⟩,
    ⟨0x48#8, .pha, .implied, 3, false, noOperand .pha⟩,
    ⟨0x08#8, .php, .implied, 3, false, noOperand .php⟩,
    ⟨0x68#8, .pla, .implied, 4, false, noOperand .pla⟩,
    ⟨0x28#8, .plp, .implied, 4, false, noOperand .plp⟩]

/-- The rows of 48_control_nop.md. -/
def opcodesControl : List OpcodeRow :=
  [
    ⟨0x4C#8, .jmp, .absolute, 3, false, wordOperand .jmpAbs⟩,
    ⟨0x6C#8, .jmp, .indirect, 5, false, wordOperand .jmpInd⟩,
    ⟨0x20#8, .jsr, .absolute, 6, false, wordOperand .jsr⟩,
    ⟨0x60#8, .rts, .implied, 6, false, noOperand .rts⟩,
    ⟨0x40#8, .rti, .implied, 6, false, noOperand .rti⟩,
    ⟨0x00#8, .brk, .implied, 7, false, noOperand .brk⟩,
    ⟨0xEA#8, .nop, .implied, 2, false, noOperand .nop⟩]

/-- The rows of 49_flagops_bit.md. -/
def opcodesFlagOps : List OpcodeRow :=
  [
    ⟨0x18#8, .clc, .implied, 2, false, noOperand .clc⟩,
    ⟨0x38#8, .sec, .implied, 2, false, noOperand .sec⟩,
    ⟨0x58#8, .cli, .implied, 2, false, noOperand .cli⟩,
    ⟨0x78#8, .sei, .implied, 2, false, noOperand .sei⟩,
    ⟨0xB8#8, .clv, .implied, 2, false, noOperand .clv⟩,
    ⟨0xD8#8, .cld, .implied, 2, false, noOperand .cld⟩,
    ⟨0xF8#8, .sed, .implied, 2, false, noOperand .sed⟩,
    ⟨0x24#8, .bit, .zeroPage, 3, false, byteOperand .bitZp⟩,
    ⟨0x2C#8, .bit, .absolute, 4, false, wordOperand .bitAbs⟩]

/-- The assigned entries of the opcode table, in the order of R100. The other 105 bytes are unimplemented (R101). -/
def opcodeTable : List OpcodeRow :=
  opcodesArithmetic ++ opcodesLogical ++ opcodesShifts ++ opcodesCompares ++ opcodesBranches
  ++ opcodesIncDec ++ opcodesLoadStore ++ opcodesTransfersStack ++ opcodesControl ++ opcodesFlagOps

/-- "Lookup is O(1) by opcode byte and never fails": here `none` is the unimplemented descriptor (R81, R101). -/
def lookupOpcode (op : Byte) : Option OpcodeRow := opcodeTable.find? (fun r => r.opcode == op)

/-! ## Decoding -/

/-- Why bytes are no instruction. -/
inductive DecodeError where
  /-- one of the 105 unimplemented opcode bytes (R101) -/
  | unimplementedOpcode (op : Byte)
  /-- fewer bytes than the instruction's length (never met by `step`, which reads as many as it needs) -/
  | truncated
  deriving DecidableEq, Repr

/-- The instruction with opcode byte `op` whose next two bytes are `b₁` and `b₂`. -/
def decodeInstr (op b₁ b₂ : Byte) : Option Instr := (lookupOpcode op).map (fun r => r.build b₁ b₂)

/-- The instruction at the front of some bytes, and the bytes after it. Total on any bytes. -/
def decode : List Byte → Except DecodeError (Instr × List Byte)
  | [] => .error .truncated
  | op :: rest =>
    match lookupOpcode op with
    | none => .error (.unimplementedOpcode op)
    | some r =>
      if rest.length + 1 < r.mode.length then .error .truncated
      else .ok (r.build (rest.getD 0 0#8) (rest.getD 1 0#8), rest.drop (r.mode.length - 1))

/-! ## Encoding -/

/-- The bytes of an instruction: the opcode byte and the operand bytes (R80). -/
def encode (i : Instr) : List Byte := i.opcode :: i.operand.bytes

/-! ## The host's word view -/

/-- Byte `k` of an instruction whose `nbits` bits are `w`, bit 0 the least significant bit of its first byte; the
bits above `nbits` are 0. -/
def tableByte (nbits w k : Nat) : Byte := BitVec.ofNat 8 ((w % 2 ^ nbits) >>> (8 * k))

/-- The instruction the decoder reads from such an instruction. -/
def decodeTableWord (nbits w : Nat) : Option Instr :=
  match decode [tableByte nbits w 0, tableByte nbits w 1, tableByte nbits w 2] with
  | .ok (i, _) => some i
  | .error _ => none

end Sys2Proof
end

