-- ==== Sys2Proof/Machine/Fetch.lean ====
section
/-! DEFINITION. Fetching an instruction's bytes, and placing them (30_encoding.md R80, R98 step 1; 20_memory.md R66). -/

namespace Sys2Proof.Machine

/-- The opcode byte at PC (R98 step 1). -/
def State.opcodeByte (s : State) : Byte := s.get s.pc

/-- The instruction at PC, from the byte at PC and the two after it, modulo 2^16 (R80). A shorter instruction ignores
the bytes it does not have; reads have no side effect (log 12). -/
def State.fetch (s : State) : Option Instr :=
  decodeInstr s.opcodeByte (s.get (s.pc + 1#16)) (s.get (s.pc + 2#16))

/-- The signal of an unimplemented opcode byte, with the byte and its address (60_exceptions.md R211). -/
def State.unimplemented (s : State) : Fault := .unimplementedOpcode s.opcodeByte s.pc

/-- The bytes `bs` stored from `addr` on through the memory port, modulo 2^16: how a loader writes (R53). -/
def State.loadBytes (addr : Word) (bs : List Byte) (s : State) : State :=
  match bs with
  | [] => s
  | b :: rest => State.loadBytes (addr + 1#16) rest (s.set addr b)

/-- The three bytes of an instruction of the host's word view stored at PC. -/
def State.placeTableWord (nbits w : Nat) (s : State) : State :=
  s.loadBytes s.pc [tableByte nbits w 0, tableByte nbits w 1, tableByte nbits w 2]

end Sys2Proof.Machine
end

