-- ==== Sys2Proof/Machine/Step.lean ====
section
/-! DEFINITION. One step (30_encoding.md R98) and the host's placing of an instruction. -/

namespace Sys2Proof.Machine

/-- `step()` (R98): fetch and look up, or raise UnimplementedOpcode; advance PC by the length; then resolve, operate and
write the flags, which is `exec`. The cycle total it returns is `State.stepCycles` (log 8). -/
def step (s : State) : Host.Outcome State Fault Refusal :=
  match s.fetch with
  | some i => exec i (s.advance i.length)
  | none => .fault s.unimplemented

/-- `s` with an instruction of `nbits` bits `w` stored at PC, where `step` fetches; this stands for the load that the
block leaves to its loader (log 7). -/
def State.withFetchWord (s : State) (nbits w : Nat) : State := s.placeTableWord nbits w

end Sys2Proof.Machine
end

