-- ==== Sys2Proof/Machine/Cycles.lean ====
section
/-! DEFINITION. The cycle total a step returns: timing only, an output and no state (30_encoding.md R99,
70_reset_and_hazards.md R238, R239). -/

namespace Sys2Proof.Machine

/-- The flag a branch tests and the value that takes it (44_branches.md R151 to R158). -/
def branchCondition : Mnemonic → Option (Flag × Bool)
  | .bpl => some (.sign, false)
  | .bmi => some (.sign, true)
  | .bvc => some (.overflow, false)
  | .bvs => some (.overflow, true)
  | .bcc => some (.carry, false)
  | .bcs => some (.carry, true)
  | .bne => some (.zero, false)
  | .beq => some (.zero, true)
  | .adc | .sbc | .and | .ora | .eor | .asl | .lsr | .rol | .ror | .cmp | .cpx | .cpy | .inc | .dec | .inx | .iny
  | .dex | .dey | .lda | .ldx | .ldy | .sta | .stx | .sty | .tax | .tay | .txa | .tya | .tsx | .txs | .pha | .php
  | .pla | .plp | .jmp | .jsr | .rts | .rti | .brk | .nop | .clc | .sec | .cli | .sei | .clv | .cld | .sed
  | .bit => none

/-- Whether the instruction is a branch that is taken in `s`. -/
def State.branchTaken (mn : Mnemonic) (s : State) : Bool :=
  match branchCondition mn with
  | some (f, b) => s.flag f == b
  | none => false

/-- The resolver's page_crossed of an operand: false without an effective address (R84, R85). -/
def State.operandCrossed (o : Operand) (s : State) : Bool :=
  match o with
  | .implied => false
  | .accumulator => false
  | .at m => s.pageCrossed m

/-- Whether a branch's target is on another page than the post-instruction PC (R99). -/
def State.targetCrossed (o : Operand) (s : State) : Bool :=
  match o with
  | .implied => false
  | .accumulator => false
  | .at m => hi8 (s.ea m) != hi8 s.pc

/-- The total of R99 for an instruction of descriptor `r`, in the state with PC advanced and nothing else done. -/
def cycleTotal (r : OpcodeRow) (i : Instr) (s : State) : Nat :=
  r.baseCycles
    + (s.operandCrossed i.operand && r.pagePenalty).toNat
    + (s.branchTaken r.mnemonic).toNat
    + (s.branchTaken r.mnemonic && s.targetCrossed i.operand).toNat

/-- What `step()` returns beside the next state; none when it raises (R211, R239). -/
def State.stepCycles (s : State) : Option Nat :=
  match lookupOpcode s.opcodeByte, s.fetch with
  | some r, some i => some (cycleTotal r i (s.advance i.length))
  | _, _ => none

end Sys2Proof.Machine
end

