-- ==== Sys2Proof/Machine/Port.lean ====
section
/-! DEFINITION. What the outside can do to an instance, between two steps (00_scope.md R4, R5; 20_memory.md R68;
70_reset_and_hazards.md R231). -/

namespace Sys2Proof.Machine

/-- One operation of the interface (R4). Reads and `dump` change nothing, so they are no events. -/
inductive Event where
  /-- `step()` -/
  | step
  /-- `set(addr, v)` by the loader or a peripheral emulator -/
  | write (addr : Word) (v : Byte)
  /-- the reset operation, with the values it happens to leave in A, X and Y -/
  | reset (a x y : Byte)
  deriving DecidableEq, Repr

/-- One event. -/
def applyEvent (e : Event) (s : State) : Host.Outcome State Fault Refusal :=
  match e with
  | .step => Sys2Proof.Machine.step s
  | .write addr v => .next (s.set addr v)
  | .reset a x y => .next (s.applyReset a x y)

/-- A list of events, in order, up to the first fault. -/
def applyEvents : List Event → State → Host.Outcome State Fault Refusal
  | [], s => .next s
  | e :: rest, s =>
    match applyEvent e s with
    | .next t => applyEvents rest t
    | .fault r => .fault r
    | .refused r => .refused r

end Sys2Proof.Machine
end

