-- ==== Sys2Proof/Safety.lean ====
section
/-! DEFINITION. What counts as a safe run, and the invariant of the state. -/

namespace Sys2Proof.Machine

/-- The invariant every operation keeps: M is in canonical form, and only cells in the image of `fold` are listed
(20_memory.md R72: the others are never read and never written). -/
abbrev State.Inv (s : State) : Prop :=
  s.mem.wf ∧ ∀ c ∈ s.mem, fold s.cfg.prgMirror (BitVec.ofNat 16 c.1) = BitVec.ofNat 16 c.1

/-- A step that completes: no UnimplementedOpcode is raised (60_exceptions.md R211). -/
def SafeStep (s : State) : Prop := ∃ t, step s = .next t

/-- A run of `k` steps in the closed model (no outside write), none of which raises: "a claim about a program takes
'no UnimplementedOpcode is raised' as something to prove" (R211; where a run ends is the claim's own, R236). -/
def SafeRun : Nat → State → Prop
  | 0, _ => True
  | k + 1, s => ∃ t, step s = .next t ∧ SafeRun k t

/-- A run of interface events, none of which raises (20_memory.md R68). -/
def SafeEvents (es : List Event) (s : State) : Prop := ∃ t, applyEvents es s = .next t

end Sys2Proof.Machine
end

