-- ==== Sys2Proof/WellFormed.lean ====
section
/-! DEFINITION. When an instruction is one the encoding can hold (30_encoding.md R96, R97). -/

namespace Sys2Proof

/-- An operand the encoding can hold: a branch offset lies within -128 to 127 (R96, R110). An operand byte and a
16-bit operand are whole fields, so every value of them is well-formed (R80). -/
def EaMode.wf : EaMode → Bool
  | .relative off => decide (-128 ≤ off) && decide (off ≤ 127)
  | .immediate _ | .zeroPage _ | .zeroPageX _ | .zeroPageY _ | .absolute _ | .absoluteX _ | .absoluteY _
  | .indirect _ | .indexedIndirect _ | .indirectIndexed _ => true

/-- As `EaMode.wf`, for an operand of any of the thirteen modes. -/
def Operand.wf : Operand → Bool
  | .implied => true
  | .accumulator => true
  | .at m => m.wf

/-- A well-formed instruction. A pairing of mnemonic and mode outside R100 has no constructor, so only the operand is
checked. -/
def Instr.wf (i : Instr) : Bool := i.operand.wf

end Sys2Proof
end

