-- ==== Sys2Proof/Certificates/Slice0/Terms.lean ====
section
/-! DEFINITION. The words the obligations are written in: what a state keeps, which forms an instruction has, and the
spec's tables of who reads and writes what. -/

namespace Sys2Proof.Terms

open Sys2Proof.Machine

/-! ## Frames -/

/-- The registers other than P (10_state.md R20). -/
inductive Reg where
  | a | x | y | sp | pc
  deriving DecidableEq, Repr

/-- Register `r` holds in `t` what it holds in `s`. -/
def Reg.Same (r : Reg) (s t : State) : Prop :=
  match r with
  | .a => t.a = s.a
  | .x => t.x = s.x
  | .y => t.y = s.y
  | .sp => t.sp = s.sp
  | .pc => t.pc = s.pc

/-- `t` is `s` but for the registers of `regs`, the flags of `flags` and the memory bytes that the addresses of
`stored` name: every other register, every other flag, the byte at every address that is no alias of a stored one, and
the configuration are as before. -/
def Frame (regs : List Reg) (flags : List Flag) (stored : List Word) (s t : State) : Prop :=
  (∀ r, r ∉ regs → r.Same s t) ∧
  (∀ f, f ∉ flags → t.flag f = s.flag f) ∧
  (∀ b, (∀ a ∈ stored, fold s.cfg.prgMirror b ≠ fold s.cfg.prgMirror a) → t.get b = s.get b) ∧
  t.cfg = s.cfg

/-- The eight flags. -/
def allFlags : List Flag :=
  [.carry, .zero, .interruptDisable, .decimal, .brk, .unused, .overflow, .sign]

/-- Zero and Sign say what they say of the byte `v` (00_scope.md R8, `SetZN`). -/
def ZNOf (v : Byte) (t : State) : Prop := t.flag .zero = decide (v = 0#8) ∧ t.flag .sign = v.getLsbD 7

/-- The address `0x0100 + SP` of the stack byte a stack pointer names (10_state.md R23). -/
def stackByte (sp : Byte) : Word := 0x0100#16 + sp.setWidth 16

/-- Every alias of `addr` reads as `v`. -/
def Reads (t : State) (addr : Word) (v : Byte) : Prop :=
  ∀ b, fold t.cfg.prgMirror b = fold t.cfg.prgMirror addr → t.get b = v

/-- `i` replaces its operand (30_encoding.md R105): `v`, which is A in Accumulator mode and the byte at the effective
address otherwise, becomes `f v`; Carry becomes `out v`, Zero and Sign are of `f v`, and nothing else changes. -/
def ReplacesOperand (i : Instr) (s : State) (f : Byte → Byte) (out : Byte → Bool) : Prop :=
  (i.operand = .accumulator →
    ∃ t, exec i s = .next t ∧ t.a = f s.a ∧ t.flag .carry = out s.a ∧ ZNOf (f s.a) t ∧
      Frame [.a] [.carry, .zero, .sign] [] s t) ∧
  (∀ m, i.operand = .at m →
    ∃ t, exec i s = .next t ∧ Reads t (s.ea m) (f (s.get (s.ea m))) ∧
      t.flag .carry = out (s.get (s.ea m)) ∧ ZNOf (f (s.get (s.ea m))) t ∧
      Frame [] [.carry, .zero, .sign] [s.ea m] s t) ∧
  i.operand ≠ .implied

/-! ## Forms -/

/-- The forms of mnemonic `mn` are exactly `fs`: mode, opcode byte, base cycle count and page_penalty, which are the
Operands and Cycles lines of its rule (00_scope.md R11, 30_encoding.md R100). -/
def HasForms (mn : Mnemonic) (fs : List (Mode × Byte × Nat × Bool)) : Prop :=
  (∀ i : Instr, i.mnemonic = mn →
    ∃ r, lookupOpcode i.opcode = some r ∧ r.mnemonic = mn ∧ (i.mode, i.opcode, r.baseCycles, r.pagePenalty) ∈ fs) ∧
  (∀ f ∈ fs, ∃ (i : Instr) (r : OpcodeRow), i.mnemonic = mn ∧ lookupOpcode i.opcode = some r ∧
    f = (i.mode, i.opcode, r.baseCycles, r.pagePenalty))

/-- The one form of an Implied instruction. -/
def HasImpliedForm (mn : Mnemonic) (op : Byte) (cycles : Nat) : Prop := HasForms mn [(.implied, op, cycles, false)]

/-- Part 1 of the list of 30_encoding.md R101, as numbers. -/
def unimplementedPart1 : List Nat :=
  [0x02, 0x03, 0x04, 0x07, 0x0B, 0x0C, 0x0F, 0x12, 0x13, 0x14, 0x17, 0x1A, 0x1B, 0x1C, 0x1F, 0x22, 0x23, 0x27,
    0x2B, 0x2F, 0x32, 0x33, 0x34, 0x37, 0x3A, 0x3B, 0x3C, 0x3F, 0x42, 0x43, 0x44, 0x47, 0x4B, 0x4F, 0x52]

/-- Part 2 of the list of 30_encoding.md R101, as numbers. -/
def unimplementedPart2 : List Nat :=
  [0x53, 0x54, 0x57, 0x5A, 0x5B, 0x5C, 0x5F, 0x62, 0x63, 0x64, 0x67, 0x6B, 0x6F, 0x72, 0x73, 0x74, 0x77, 0x7A,
    0x7B, 0x7C, 0x7F, 0x80, 0x82, 0x83, 0x87, 0x89, 0x8B, 0x8F, 0x92, 0x93, 0x97, 0x9B, 0x9C, 0x9E, 0x9F]

/-- Part 3 of the list of 30_encoding.md R101, as numbers. -/
def unimplementedPart3 : List Nat :=
  [0xA3, 0xA7, 0xAB, 0xAF, 0xB2, 0xB3, 0xB7, 0xBB, 0xBF, 0xC2, 0xC3, 0xC7, 0xCB, 0xCF, 0xD2, 0xD3, 0xD4, 0xD7,
    0xDA, 0xDB, 0xDC, 0xDF, 0xE2, 0xE3, 0xE7, 0xEB, 0xEF, 0xF2, 0xF3, 0xF4, 0xF7, 0xFA, 0xFB, 0xFC, 0xFF]

/-- The 105 unimplemented opcode bytes (R101). -/
def unimplementedBytes : List Byte :=
  (unimplementedPart1 ++ unimplementedPart2 ++ unimplementedPart3).map (BitVec.ofNat 8)

/-! ## Who writes and who reads what -/

/-- The mnemonics that write Zero and Sign (10_state.md R26). -/
def znWriters : List Mnemonic :=
  [.adc, .sbc, .and, .ora, .eor, .asl, .lsr, .rol, .ror, .cmp, .cpx, .cpy, .inc, .dec, .inx, .iny, .dex, .dey,
    .lda, .ldx, .ldy, .tax, .tay, .txa, .tya, .tsx, .pla, .bit, .plp, .rti]

/-- Column "written by" of R26. -/
def flagWriters : Flag → List Mnemonic
  | .carry => [.adc, .sbc, .asl, .lsr, .rol, .ror, .cmp, .cpx, .cpy, .clc, .sec, .plp, .rti]
  | .zero => znWriters
  | .interruptDisable => [.sei, .cli, .brk, .plp, .rti]
  | .decimal => [.sed, .cld, .plp, .rti]
  | .brk => [.brk, .plp, .rti]
  | .unused => [.plp, .rti]
  | .overflow => [.adc, .sbc, .bit, .clv, .plp, .rti]
  | .sign => znWriters

/-- Column "read by" of R26. -/
def flagReaders : Flag → List Mnemonic
  | .carry => [.adc, .sbc, .rol, .ror, .bcc, .bcs, .php, .brk]
  | .zero => [.bne, .beq, .php, .brk]
  | .interruptDisable => [.php, .brk]
  | .decimal => [.php, .brk]
  | .brk => []
  | .unused => []
  | .overflow => [.bvc, .bvs, .php, .brk]
  | .sign => [.bpl, .bmi, .php, .brk]

/-- Two states that differ at most in flag `f`. -/
def EqualBut (f : Flag) (s t : State) : Prop :=
  t.a = s.a ∧ t.x = s.x ∧ t.y = s.y ∧ t.sp = s.sp ∧ t.pc = s.pc ∧ t.mem = s.mem ∧ t.cfg = s.cfg ∧
  ∀ g, g ≠ f → t.flag g = s.flag g

/-- The mnemonics that write PC beyond the advance (10_state.md R24). -/
def pcWriters : List Mnemonic :=
  [.jmp, .jsr, .rts, .rti, .brk, .bpl, .bmi, .bvc, .bvs, .bcc, .bcs, .bne, .beq]

/-- The mnemonics that write a byte of memory in some form (20_memory.md R71); a shift or rotate in Accumulator mode
writes none. -/
def memoryWriters : List Mnemonic :=
  [.sta, .stx, .sty, .asl, .lsr, .rol, .ror, .inc, .dec, .pha, .php, .jsr, .brk]

/-- The flag each branch tests and the value that takes it (44_branches.md R151 to R158). -/
def branchTests : List (Mnemonic × Flag × Bool) :=
  [(.bpl, .sign, false), (.bmi, .sign, true), (.bvc, .overflow, false), (.bvs, .overflow, true),
    (.bcc, .carry, false), (.bcs, .carry, true), (.bne, .zero, false), (.beq, .zero, true)]

end Sys2Proof.Terms
end

