-- ==== Sys2Proof/Certificates/Slice0/Obligations.lean ====
section
/-! DEFINITION. The statements for the provers. Each follows the rules of spec/ its docstring names; opcode bytes and
cycle counts stand in them as the rules tabulate them (log 16). PC is advanced before `exec` runs (30_encoding.md R98
step 2, log 9), so `s.pc` in a statement about `exec` is the address of the next instruction. -/

open Sys2Proof Sys2Proof.Machine Sys2Proof.Terms

/-- Derived. For every well-formed instruction i (all 151 constructors, every operand value the encoding admits) and
every following bytes, decode (encode i ++ rest) is i with rest left over. (30_encoding.md section 1 (Formats),
30_encoding.md section 5 (The opcode map)) -/
def Obligations.DecodeOfEncodeIsTheInstruction : Prop :=
  ∀ (i : Instr) (rest : List Byte), i.wf = true → decode (encode i ++ rest) = .ok (i, rest)

/-- Derived. If some bytes decode to instruction i with rest left over, then i is well-formed and encode i followed
by rest is those bytes: no bit of an instruction is dropped, and no two encodings share an instruction.
(30_encoding.md section 1 (Formats), 30_encoding.md section 5 (The opcode map)) -/
def Obligations.EncodeOfDecodeIsTheBytes : Prop :=
  ∀ (bytes rest : List Byte) (i : Instr), decode bytes = .ok (i, rest) → i.wf = true ∧ encode i ++ rest = bytes

/-- The list of R101 has 105 bytes; a byte is in it exactly when the opcode table has no row for it; such a byte
decodes to nothing whatever follows, is the opcode of no instruction, and a step that fetches it raises
UnimplementedOpcode with the byte and its address. (R101) -/
def Obligations.UnimplementedBytesAreNoInstruction : Prop :=
  unimplementedBytes.length = 105 ∧
  (∀ op, op ∈ unimplementedBytes ↔ lookupOpcode op = none) ∧
  ∀ op, op ∈ unimplementedBytes →
    (∀ rest, decode (op :: rest) = .error (.unimplementedOpcode op)) ∧
    (∀ i : Instr, i.opcode ≠ op) ∧
    ∀ s : State, s.get s.pc = op → step s = .fault (.unimplementedOpcode op s.pc)

/-- Derived. The table has 151 rows with pairwise distinct opcode bytes; whatever the two following bytes, a row
builds an instruction with the row's byte, mnemonic and mode; its length is one more than its operand bytes and is
1, 2 or 3 by its mode alone. The lengths of Immediate, ZeroPageX and ZeroPageY are the spec's decision D28.
(30_encoding.md section 1 (Formats, length), 92_eei_decisions.md D28) -/
def Obligations.EveryRowBuildsItsOwnInstruction : Prop :=
  opcodeTable.length = 151 ∧ opcodeTable.Pairwise (fun r q => r.opcode ≠ q.opcode) ∧
  ∀ (op : Byte) (r : OpcodeRow) (b₁ b₂ : Byte), lookupOpcode op = some r →
    (r.build b₁ b₂).opcode = op ∧ (r.build b₁ b₂).mnemonic = r.mnemonic ∧ (r.build b₁ b₂).mode = r.mode ∧
    (r.build b₁ b₂).length = 1 + (r.build b₁ b₂).operand.bytes.length ∧
    ((r.build b₁ b₂).length = 1 ↔ r.mode ∈ [Mode.implied, .accumulator]) ∧
    ((r.build b₁ b₂).length = 2 ↔ r.mode ∈ [Mode.immediate, .zeroPage, .zeroPageX, .zeroPageY, .indexedIndirect,
      .indirectIndexed, .relative]) ∧
    ((r.build b₁ b₂).length = 3 ↔ r.mode ∈ [Mode.absolute, .absoluteX, .absoluteY, .indirect])

/-- Derived. The example bytes of the assembler-syntax table, one for each addressing mode, decode to the
instruction they are the bytes of. (30_encoding.md section 6 (Assembler syntax, the example bytes)) -/
def Obligations.WordsDecodeAsTheTableSays : Prop :=
  decode [0xE8#8] = .ok (.inx, []) ∧
  decode [0x0A#8] = .ok (.aslAcc, []) ∧
  decode [0xA9#8, 0x42#8] = .ok (.ldaImm 0x42#8, []) ∧
  decode [0xA5#8, 0x10#8] = .ok (.ldaZp 0x10#8, []) ∧
  decode [0xB5#8, 0x10#8] = .ok (.ldaZpx 0x10#8, []) ∧
  decode [0xB6#8, 0x10#8] = .ok (.ldxZpy 0x10#8, []) ∧
  decode [0xAD#8, 0x34#8, 0x12#8] = .ok (.ldaAbs 0x1234#16, []) ∧
  decode [0xBD#8, 0x34#8, 0x12#8] = .ok (.ldaAbx 0x1234#16, []) ∧
  decode [0xB9#8, 0x34#8, 0x12#8] = .ok (.ldaAby 0x1234#16, []) ∧
  decode [0x6C#8, 0xFF#8, 0x02#8] = .ok (.jmpInd 0x02FF#16, []) ∧
  decode [0xA1#8, 0x20#8] = .ok (.ldaIzx 0x20#8, []) ∧
  decode [0xB1#8, 0x20#8] = .ok (.ldaIzy 0x20#8, []) ∧
  decode [0xD0#8, 0xFB#8] = .ok (.bne (-5), [])

/-- Derived. If the byte at PC and the two after it (modulo 2^16) decode to i, then step at that state is exec i at
the state with PC advanced by the length of i and nothing else changed. That a shorter instruction leaves the
further bytes unread is unobservable (log 12). (30_encoding.md section 3 (The step)) -/
def Obligations.StepRunsTheDecodedInstruction : Prop :=
  ∀ (s : State) (i : Instr) (rest : List Byte),
    decode [s.get s.pc, s.get (s.pc + 1#16), s.get (s.pc + 2#16)] = .ok (i, rest) →
    i.wf = true ∧ step s = exec i { s with pc := s.pc + BitVec.ofNat 16 i.length }

/-- With no row for the byte at PC, step raises UnimplementedOpcode(op, pc0) and returns no total. With a row r, the
instruction i that r makes of the two following bytes runs on the state with PC advanced by the length of r's mode;
it completes, that completion is the step, the cycle total is that of R99, no flag outside the mask of the rule
changes, and unless the instruction writes PC in its Operation PC stays pc0 plus the length. (R98) -/
def Obligations.StepFollowsItsSixSteps : Prop :=
  ∀ s : State,
    (lookupOpcode (s.get s.pc) = none →
      step s = .fault (.unimplementedOpcode (s.get s.pc) s.pc) ∧ s.stepCycles = none) ∧
    ∀ r, lookupOpcode (s.get s.pc) = some r →
      ∃ (i : Instr) (t : State), i = r.build (s.get (s.pc + 1#16)) (s.get (s.pc + 2#16)) ∧
        exec i { s with pc := s.pc + BitVec.ofNat 16 r.mode.length } = .next t ∧
        step s = .next t ∧
        s.stepCycles = some (cycleTotal r i { s with pc := s.pc + BitVec.ofNat 16 r.mode.length }) ∧
        (∀ f, r.mnemonic ∉ flagWriters f → t.flag f = s.flag f) ∧
        (r.mnemonic ∉ pcWriters → t.pc = s.pc + BitVec.ofNat 16 r.mode.length)

/-- For every state, step answers a next state exactly when the byte at PC is not one of the 105 bytes of R101;
otherwise it answers the fault UnimplementedOpcode with that byte and PC. BRK (byte 0x00) is among the bytes on
which it completes: its trap entry is the normal completion of the instruction. Step never answers a refusal. (R210) -/
def Obligations.UnimplementedOpcodeIsTheOnlyStop : Prop :=
  ∀ s : State,
    ((∃ t, step s = .next t) ↔ s.get s.pc ∉ unimplementedBytes) ∧
    (∀ f, step s = .fault f ↔ s.get s.pc ∈ unimplementedBytes ∧ f = .unimplementedOpcode (s.get s.pc) s.pc) ∧
    (s.get s.pc = 0x00#8 → step s = .next (s.advance 1).trapEntry) ∧
    ∀ r, step s ≠ .refused r

/-- Derived. From every state whose memory list is in canonical form and lists only cells in the image of fold (the
model's form of M, log 4 and log 13), a step that answers a next state leads to such a state, with PRG_MIRROR and
SP_RESET unchanged. (20_memory.md section 3 (cells outside the image of fold), 00_scope.md section 4 (PRG_MIRROR
constant for a run)) -/
def Obligations.StepKeepsTheInvariant : Prop :=
  ∀ s t : State, s.Inv → step s = .next t → t.Inv ∧ t.cfg = s.cfg

/-- Derived. From every state with the invariant, any list of interface events that raises nothing leads to a state
with the invariant and the same configuration, whatever the outside writes and whatever A, X and Y each reset leaves
(log 14, log 15). (20_memory.md section 3 (cells outside the image of fold), 20_memory.md section 4 (external
agents), 00_scope.md section 3 (Interfaces of the block)) -/
def Obligations.EventsKeepTheInvariant : Prop :=
  ∀ (es : List Event) (s t : State), s.Inv → applyEvents es s = .next t → t.Inv ∧ t.cfg = s.cfg

/-- Derived. State.reset has the invariant; P is 0x24, PC is the word at the reset vector. A, X, Y zero, SP 0xFD,
PRG_MIRROR false and empty memory are the model's choices (log 1 to 4), not rules of the spec. (10_state.md section
5 (Reset values in one table), 92_eei_decisions.md D13) -/
def Obligations.ResetStateIsAsNamed : Prop :=
  State.reset.Inv ∧ State.reset.p = 0x24#8 ∧ State.reset.pc = State.reset.get16 0xFFFC#16 ∧
  State.reset.sp = State.reset.cfg.spReset ∧ State.reset.a = 0x00#8 ∧ State.reset.x = 0x00#8 ∧
  State.reset.y = 0x00#8 ∧ State.reset.mem = [] ∧ State.reset.cfg = { prgMirror := false, spReset := 0xFD#8 }

/-- Whatever the state and whatever values a, x, y reset leaves in A, X and Y (not specified): PC is {get(0xFFFD),
get(0xFFFC)} through fold, SP is SP_RESET, P is 0x24 with exactly Unused and InterruptDisable set, memory and
configuration are not written, and nothing depends on the registers before. (R230) -/
def Obligations.ResetLoadsThePCFromTheVector : Prop :=
  ∀ (a x y : Byte) (s : State),
    (s.applyReset a x y).pc = s.get 0xFFFD#16 ++ s.get 0xFFFC#16 ∧
    (s.applyReset a x y).sp = s.cfg.spReset ∧
    (s.applyReset a x y).p = 0x24#8 ∧
    (∀ f, (s.applyReset a x y).flag f = decide (f = .unused ∨ f = .interruptDisable)) ∧
    (s.applyReset a x y).a = a ∧ (s.applyReset a x y).x = x ∧ (s.applyReset a x y).y = y ∧
    (s.applyReset a x y).mem = s.mem ∧ (s.applyReset a x y).cfg = s.cfg ∧
    ∀ s' : State, s'.mem = s.mem → s'.cfg = s.cfg → s'.applyReset a x y = s.applyReset a x y

/-- For every flag f and instruction i: if i is not listed as a writer of f, f is after exec what it was before; if
i is not listed as a reader of f, then on two states that differ at most in f, exec completes on both and leads to
two states that differ at most in f. compute_flags(0, {Zero}) sets Zero and leaves every other flag. (R26, R27) -/
def Obligations.FlagsAreWrittenAndReadOnlyWhereListed : Prop :=
  (∀ (f : Flag) (i : Instr) (s t : State), exec i s = .next t → i.mnemonic ∉ flagWriters f → t.flag f = s.flag f) ∧
  (∀ (f : Flag) (i : Instr) (s s' : State), EqualBut f s s' → i.mnemonic ∉ flagReaders f →
    ∃ t t' : State, exec i s = .next t ∧ exec i s' = .next t' ∧ EqualBut f t t') ∧
  ∀ (a b p : Byte), isSet .zero (computeFlags [.zero] 0 a b p) = true ∧
    ∀ f, f ≠ .zero → isSet f (computeFlags [.zero] 0 a b p) = isSet f p

/-- Derived. When exec i answers t from s: A changes only by ADC, SBC, AND, ORA, EOR, LDA, PLA, TXA, TYA or an
Accumulator form; X only by LDX, INX, DEX, TAX, TSX; Y only by LDY, INY, DEY, TAY; SP only by the stack instructions
and TXS; PC, beyond the advance, only by JMP, JSR, RTS, RTI, BRK and taken branches. (10_state.md section 1 (The
register file, written-by lists)) -/
def Obligations.RegistersAreWrittenOnlyWhereListed : Prop :=
  ∀ (i : Instr) (s t : State), exec i s = .next t →
    (i.mnemonic ∉ [.adc, .sbc, .and, .ora, .eor, .lda, .pla, .txa, .tya] → i.mode ≠ .accumulator → t.a = s.a) ∧
    (i.mnemonic ∉ [.ldx, .inx, .dex, .tax, .tsx] → t.x = s.x) ∧
    (i.mnemonic ∉ [.ldy, .iny, .dey, .tay] → t.y = s.y) ∧
    (i.mnemonic ∉ [.pha, .php, .pla, .plp, .jsr, .rts, .rti, .brk, .txs] → t.sp = s.sp) ∧
    (i.mnemonic ∉ pcWriters ∨ (∃ f b, (i.mnemonic, f, b) ∈ branchTests ∧ s.flag f ≠ b) → t.pc = s.pc)

/-- Derived. When exec i answers t from s and i is none of STA, STX, STY, INC, DEC, PHA, PHP, JSR, BRK and no memory
form of ASL, LSR, ROL, ROR, the whole backing array is unchanged. (20_memory.md section 2 (What each instruction
moves)) -/
def Obligations.MemoryIsWrittenOnlyByStoringForms : Prop :=
  ∀ (i : Instr) (s t : State), exec i s = .next t →
    (i.mnemonic ∉ memoryWriters ∨ i.mode = .accumulator) → t.mem = s.mem

/-- Derived. For every address: below 0x2000 it folds modulo 0x800; from 0x2000 to 0x3FFF onto 0x2000 plus the
address modulo 8; from 0x8000 on, with PRG_MIRROR, onto 0x8000 plus the address modulo 0x4000; otherwise onto
itself. fold is idempotent, and the addresses it leaves alone are exactly its image. The idempotence and the image
are the sentence "Consequences [derived: from the four cases]" of the fold rule, an inference the spec marks as its
own; the four ranges are the rule's plain words. (20_memory.md section 1 (The address space and the folding
decoder)) -/
def Obligations.FoldFollowsTheFourRanges : Prop :=
  ∀ (pm : Bool) (a : Word),
    (a.toNat ≤ 0x1FFF → (fold pm a).toNat = a.toNat % 0x800) ∧
    (0x2000 ≤ a.toNat → a.toNat ≤ 0x3FFF → (fold pm a).toNat = 0x2000 + a.toNat % 8) ∧
    (0x8000 ≤ a.toNat → pm = true → (fold pm a).toNat = 0x8000 + a.toNat % 0x4000) ∧
    (0x4000 ≤ a.toNat → (a.toNat ≤ 0x7FFF ∨ pm = false) → fold pm a = a) ∧
    fold pm (fold pm a) = fold pm a ∧
    (fold pm a = a ↔ a.toNat ≤ 0x07FF ∨ (0x2000 ≤ a.toNat ∧ a.toNat ≤ 0x2007) ∨
      (0x4000 ≤ a.toNat ∧ a.toNat ≤ 0x7FFF) ∨ (0x8000 ≤ a.toNat ∧ (pm = true → a.toNat ≤ 0xBFFF)))

/-- get(addr) is M[fold(addr)]. set(addr, v) makes M[fold(addr)] be v for every address, and leaves every other
cell, every register and the configuration. (That the PRG bank and the IO cells store like any other is the spec's
decision D24, log 21.) (R52, R53) -/
def Obligations.GetAndSetAccessTheFoldedCell : Prop :=
  ∀ (s : State) (addr : Word) (v : Byte),
    s.get addr = s.mem.readCell (fold s.cfg.prgMirror addr).toNat ∧
    (s.set addr v).mem.readCell (fold s.cfg.prgMirror addr).toNat = v ∧
    (∀ k, k ≠ (fold s.cfg.prgMirror addr).toNat → (s.set addr v).mem.readCell k = s.mem.readCell k) ∧
    (s.set addr v).a = s.a ∧ (s.set addr v).x = s.x ∧ (s.set addr v).y = s.y ∧ (s.set addr v).sp = s.sp ∧
    (s.set addr v).pc = s.pc ∧ (s.set addr v).p = s.p ∧ (s.set addr v).cfg = s.cfg

/-- After set(a, v), get(b) is v when fold(b) = fold(a) and is unchanged otherwise; get(a) is v for every a. In
every state, hence after any set, get agrees at addr, addr ^ 0x0800, addr ^ 0x1000 and addr ^ 0x1800 below 0x2000,
and at addr and 0x2000 + (addr & 7) from 0x2000 to 0x3FFF. (R56) -/
def Obligations.AliasesOfACellAreConsistent : Prop :=
  (∀ (s : State) (a b : Word) (v : Byte),
    (fold s.cfg.prgMirror b = fold s.cfg.prgMirror a → (s.set a v).get b = v) ∧
    (fold s.cfg.prgMirror b ≠ fold s.cfg.prgMirror a → (s.set a v).get b = s.get b) ∧
    (s.set a v).get a = v) ∧
  (∀ (s : State) (a : Word), a.toNat ≤ 0x1FFF →
    s.get a = s.get (a ^^^ 0x0800#16) ∧ s.get a = s.get (a ^^^ 0x1000#16) ∧ s.get a = s.get (a ^^^ 0x1800#16)) ∧
  ∀ (s : State) (a : Word), 0x2000 ≤ a.toNat → a.toNat ≤ 0x3FFF →
    s.get a = s.get (0x2000#16 + (a &&& 0x0007#16))

/-- The number get16(addr) is get(addr) plus 256 times get((addr + 1) mod 2^16). At 0xFFFF the high byte is from
0x0000, at 0x00FF from 0x0100 and at 0x02FF from 0x0300: no page wrap of any kind. (R54) -/
def Obligations.SixteenBitReadsAreLittleEndian : Prop :=
  (∀ (s : State) (addr : Word), (s.get16 addr).toNat = (s.get addr).toNat + 256 * (s.get (addr + 1#16)).toNat) ∧
  ∀ s : State, s.get16 0xFFFF#16 = s.get 0x0000#16 ++ s.get 0xFFFF#16 ∧
    s.get16 0x00FF#16 = s.get 0x0100#16 ++ s.get 0x00FF#16 ∧
    s.get16 0x02FF#16 = s.get 0x0300#16 ++ s.get 0x02FF#16

/-- dump has 65536 bytes, and its byte at address a is M[fold(a)], which is what get(a) reads; so a cell outside the
image of fold never appears in it. It returns bytes and no state. (R55) -/
def Obligations.DumpResolvesEveryAddress : Prop :=
  ∀ s : State, s.dump.length = 0x10000 ∧
    ∀ a : Word, s.dump[a.toNat]? = some (s.mem.readCell (fold s.cfg.prgMirror a).toNat) ∧
      s.dump[a.toNat]? = some (s.get a)

/-- Derived. The model's canonical form (log 4, log 13) gives each contents of the backing array one list: equal
contents are equal data. (20_memory.md section 1 (the backing array), 10_state.md section 4 (Memory state)) -/
def Obligations.CanonicalMemoriesThatReadAlikeAreEqual : Prop :=
  ∀ m m' : Memory, m.wf → m'.wf → (∀ k, m.readCell k = m'.readCell k) → m = m'

/-- Push8(v) makes the byte at 0x0100 + SP be v, decrements SP modulo 256 and changes nothing else; Pull8 increments
SP modulo 256, returns the byte at 0x0100 plus the new SP and changes nothing else. The address is always in 0x0100
to 0x01FF and folds onto itself. (R69) -/
def Obligations.PushAndPullUseTheStackPage : Prop :=
  ∀ (s : State) (v : Byte),
    Reads (s.push8 v) (stackByte s.sp) v ∧ (s.push8 v).sp.toNat = (s.sp.toNat + 255) % 256 ∧
    Frame [.sp] [] [stackByte s.sp] s (s.push8 v) ∧
    s.popped.sp.toNat = (s.sp.toNat + 1) % 256 ∧ s.top8 = s.get (stackByte s.popped.sp) ∧
    Frame [.sp] [] [] s s.popped ∧
    0x0100 ≤ (stackByte s.sp).toNat ∧ (stackByte s.sp).toNat ≤ 0x01FF ∧
    fold s.cfg.prgMirror (stackByte s.sp) = stackByte s.sp

/-- Derived. Push16(w) puts hi8(w) at 0x0100 + SP and lo8(w) at 0x0100 + SP - 1 (the pair wraps inside the stack
page), SP decreases by 2, nothing else changes; a Pull16 at once returns w and restores SP. The byte order is the
spec's decision D10. (20_memory.md section 5 (The stack primitives), 92_eei_decisions.md D10) -/
def Obligations.PulledWordIsThePushedWord : Prop :=
  ∀ (s : State) (w : Word),
    Reads (s.push16 w) (stackByte s.sp) (hi8 w) ∧ Reads (s.push16 w) (stackByte (s.sp - 1#8)) (lo8 w) ∧
    (s.push16 w).sp = s.sp - 2#8 ∧
    Frame [.sp] [] [stackByte s.sp, stackByte (s.sp - 1#8)] s (s.push16 w) ∧
    (s.push16 w).top16 = w ∧ (s.push16 w).popped16.sp = s.sp

/-- Derived. For every state, every PC (mirrored ranges and the wrap at 0xFFFF included) and every well-formed
instruction i: after its bytes are stored from PC on, step is exec i with PC advanced. Nothing is prefetched. That
stores are seen at once is an inference the spec marks as its own. (20_memory.md section 4 (Instruction-fetch
coherence)) -/
def Obligations.StoredInstructionIsTheNextFetched : Prop :=
  ∀ (s : State) (i : Instr), i.wf = true →
    step (s.loadBytes s.pc (encode i)) =
      exec i { s.loadBytes s.pc (encode i) with pc := s.pc + BitVec.ofNat 16 i.length }

/-- The effective address is d, (d + X) mod 256 or (d + Y) mod 256 with high byte 0; page_crossed is false; the
length is 2; only LDX and STX have ZeroPageY. (R87, R88, R89) -/
def Obligations.ZeroPageAddressesWrapWithinPageZero : Prop :=
  ∀ (s : State) (d : Byte),
    (s.ea (.zeroPage d)).toNat = d.toNat ∧ s.pageCrossed (.zeroPage d) = false ∧
    (s.ea (.zeroPageX d)).toNat = (d.toNat + s.x.toNat) % 256 ∧ s.pageCrossed (.zeroPageX d) = false ∧
    (s.ea (.zeroPageY d)).toNat = (d.toNat + s.y.toNat) % 256 ∧ s.pageCrossed (.zeroPageY d) = false ∧
    Mode.zeroPage.length = 2 ∧ Mode.zeroPageX.length = 2 ∧ Mode.zeroPageY.length = 2 ∧
    ∀ i : Instr, i.mode = .zeroPageY → i.mnemonic = .ldx ∨ i.mnemonic = .stx

/-- Absolute gives w and never crosses; AbsoluteX gives (w + X) mod 2^16 and AbsoluteY (w + Y) mod 2^16,
page_crossed exactly when the high byte of the sum is not that of w (a wrap past 0xFFFF included); the length is 3.
JMP Absolute and JSR take the effective address as the jump target. (R90, R91, R92) -/
def Obligations.AbsoluteAddressesAddTheIndexInFull : Prop :=
  ∀ (s : State) (w : Word),
    s.ea (.absolute w) = w ∧ s.pageCrossed (.absolute w) = false ∧
    (s.ea (.absoluteX w)).toNat = (w.toNat + s.x.toNat) % 65536 ∧
    s.pageCrossed (.absoluteX w) = decide ((w.toNat + s.x.toNat) % 65536 / 256 ≠ w.toNat / 256) ∧
    (s.ea (.absoluteY w)).toNat = (w.toNat + s.y.toNat) % 65536 ∧
    s.pageCrossed (.absoluteY w) = decide ((w.toNat + s.y.toNat) % 65536 / 256 ≠ w.toNat / 256) ∧
    Mode.absolute.length = 3 ∧ Mode.absoluteX.length = 3 ∧ Mode.absoluteY.length = 3 ∧
    (∃ t, exec (.jmpAbs w) s = .next t ∧ t.pc = w) ∧ ∃ t, exec (.jsr w) s = .next t ∧ t.pc = w

/-- With pointer w the low byte of the address is get(w); the high byte is get(w + 1) unless the low byte of w is
0xFF, when it is get(w & 0xFF00), the start of the same page; page_crossed is false, the length 3, and only JMP has
the mode. (R93) -/
def Obligations.IndirectTakesTheHighByteFromTheSamePage : Prop :=
  ∀ (s : State) (w : Word),
    (w.toNat % 256 ≠ 0xFF → s.ea (.indirect w) = s.get (w + 1#16) ++ s.get w ∧ s.ea (.indirect w) = s.get16 w) ∧
    (w.toNat % 256 = 0xFF → s.ea (.indirect w) = s.get (w &&& 0xFF00#16) ++ s.get w) ∧
    s.pageCrossed (.indirect w) = false ∧ Mode.indirect.length = 3 ∧
    ∀ i : Instr, i.mode = .indirect → i.mnemonic = .jmp

/-- Derived. IndexedIndirect reads its address at z = (d + X) mod 256 and z + 1 as a 16-bit sum (z = 0xFF takes the
high byte from 0x0100) and never crosses. IndirectIndexed reads its base at d and d + 1 in the same way, adds Y
modulo 2^16, and crosses exactly when the high bytes of the sum and the base differ. The length of both is 2. That
the pointer at 0x00FF takes its high byte from 0x0100 is the spec's decision D8 (log 19). (30_encoding.md section 2
(IndexedIndirect, IndirectIndexed), 92_eei_decisions.md D8) -/
def Obligations.ZeroPagePointersAreReadByGetSixteen : Prop :=
  ∀ (s : State) (d : Byte),
    s.ea (.indexedIndirect d) =
      s.get (BitVec.ofNat 16 ((d.toNat + s.x.toNat) % 256 + 1)) ++
        s.get (BitVec.ofNat 16 ((d.toNat + s.x.toNat) % 256)) ∧
    s.pageCrossed (.indexedIndirect d) = false ∧
    s.ea (.indirectIndexed d) =
      (s.get (BitVec.ofNat 16 (d.toNat + 1)) ++ s.get (BitVec.ofNat 16 d.toNat)) + s.y.setWidth 16 ∧
    s.pageCrossed (.indirectIndexed d) =
      decide (hi8 (s.ea (.indirectIndexed d)) ≠ s.get (BitVec.ofNat 16 (d.toNat + 1))) ∧
    Mode.indexedIndirect.length = 2 ∧ Mode.indirectIndexed.length = 2

/-- With the instruction at pc0 and offset byte d, the target is pc0 + 2 + d when d < 0x80 and pc0 + 2 + d - 0x100
otherwise, modulo 2^16; the resolver never signals a page cross; the length is 2; exactly the eight branches have
the mode. (R96) -/
def Obligations.RelativeTargetsCountFromTheNextInstruction : Prop :=
  (∀ (s : State) (d : Byte),
    ((s.advance 2).ea (.relative (signedOffset d))).toNat =
      (s.pc.toNat + 2 + if d.toNat < 0x80 then d.toNat else 0xFF00 + d.toNat) % 65536 ∧
    s.pageCrossed (.relative (signedOffset d)) = false) ∧
  Mode.relative.length = 2 ∧
  ∀ i : Instr, i.mode = .relative ↔ i.mnemonic ∈ [.bpl, .bmi, .bvc, .bvs, .bcc, .bcs, .bne, .beq]

/-- When the instruction fetched at s has an immediate operand d, then d is the byte at pc0 + 1, with PC advanced
the effective address is pc0 + 1, the operand read is that byte, no page is crossed and the length is 2. An Implied
instruction has length 1, no operand byte and no effective address. (R84, R86) -/
def Obligations.ImmediateOperandIsTheByteAfterTheOpcode : Prop :=
  (∀ (s : State) (i : Instr) (d : Byte), s.fetch = some i → i.operand = .at (.immediate d) →
    d = s.get (s.pc + 1#16) ∧ (s.advance i.length).ea (.immediate d) = s.pc + 1#16 ∧
    (s.advance i.length).operand (.immediate d) = s.get (s.pc + 1#16) ∧
    (s.advance i.length).pageCrossed (.immediate d) = false ∧ i.length = 2) ∧
  ∀ i : Instr, i.mode = .implied →
    i.operand = .implied ∧ i.length = 1 ∧ i.operand.bytes = [] ∧ ∀ s : State, s.operandCrossed i.operand = false

/-- For each flag with bit number n: is_set reads bit n of P, set makes it 1, clear makes it 0, assign makes it the
given value, and no other bit changes. The masks are 0x01, 0x02, ... 0x80 in the order Carry, Zero,
InterruptDisable, Decimal, Break, Unused, Overflow, Sign. (R28) -/
def Obligations.FlagUnitTouchesOneBit : Prop :=
  ∀ fn ∈ [(Flag.carry, 0), (.zero, 1), (.interruptDisable, 2), (.decimal, 3), (.brk, 4), (.unused, 5), (.overflow, 6),
      (.sign, 7)],
    ∀ (p : Byte) (b : Bool), isSet fn.1 p = ((p &&& fn.1.mask) != 0#8) ∧ isSet fn.1 p = p.getLsbD fn.2 ∧
      setFlag fn.1 p = p ||| fn.1.mask ∧ clearFlag fn.1 p = p &&& ~~~ fn.1.mask ∧
      ∀ k, k < 8 →
        (setFlag fn.1 p).getLsbD k = (decide (k = fn.2) || p.getLsbD k) ∧
        (clearFlag fn.1 p).getLsbD k = (!decide (k = fn.2) && p.getLsbD k) ∧
        (assignFlag fn.1 b p).getLsbD k = if k = fn.2 then b else p.getLsbD k

/-- Derived. With t the full-width result and a, b the addends: a flag outside the mask keeps its value, and so do
InterruptDisable, Decimal, Break and Unused, even in the mask; Carry is bit 8 of t; Zero is 1 iff t mod 256 = 0;
Sign is bit 7 of t; Overflow is 1 iff a and b have the same sign and the result the other. That the four flags keep
their value when the mask names them is the model's choice, a DESIGN CHOICE (log 23): the spec's ALU has no clause
for them. That the ALU takes the addends is the spec's decision D6, the width of t its decision D30. (10_state.md
section 2 (the flag ALU), 92_eei_decisions.md D6, 92_eei_decisions.md D30) -/
def Obligations.FlagALURecomputesExactlyItsMask : Prop :=
  ∀ (mask : List Flag) (t : Nat) (a b p : Byte),
    (∀ f, (f ∉ mask ∨ f ∈ [Flag.interruptDisable, .decimal, .brk, .unused]) →
      isSet f (computeFlags mask t a b p) = isSet f p) ∧
    (.carry ∈ mask → isSet .carry (computeFlags mask t a b p) = decide (256 ≤ t % 512)) ∧
    (.zero ∈ mask → isSet .zero (computeFlags mask t a b p) = decide (t % 256 = 0)) ∧
    (.sign ∈ mask → isSet .sign (computeFlags mask t a b p) = decide (128 ≤ t % 256)) ∧
    (.overflow ∈ mask → isSet .overflow (computeFlags mask t a b p) =
      decide (a.msb = b.msb ∧ decide (128 ≤ t % 256) ≠ a.msb))

/-- For each of the eight forms of ADC and every state: exec completes; with t = A + m + C (m the operand, C the
carry before), A is t mod 256, Carry is bit 8 of t, Zero and Sign are of the result, Overflow is ((a0 ^ r) & (m ^ r)
& 0x80) != 0; every other register, flag and byte of memory is as before. Setting or clearing Decimal before makes
no difference to A. The opcode bytes and cycle counts of the forms are those the rules tabulate (D1, D4, log 16).
(R130) -/
def Obligations.AdcAddsMemoryAndCarry : Prop :=
  HasForms .adc
    [(.immediate, 0x69#8, 2, false), (.zeroPage, 0x65#8, 3, false), (.zeroPageX, 0x75#8, 4, false),
      (.absolute, 0x6D#8, 4, false), (.absoluteX, 0x7D#8, 4, true), (.absoluteY, 0x79#8, 4, true),
      (.indexedIndirect, 0x61#8, 6, false), (.indirectIndexed, 0x71#8, 5, true)] ∧
  ∀ (i : Instr) (m : EaMode) (s : State), i.mnemonic = .adc → i.operand = .at m →
    ∃ t, exec i s = .next t ∧
      t.a = BitVec.ofNat 8 (s.a.toNat + (s.operand m).toNat + (s.flag .carry).toNat) ∧
      t.flag .carry = decide (256 ≤ s.a.toNat + (s.operand m).toNat + (s.flag .carry).toNat) ∧
      t.flag .overflow = (((s.a ^^^ t.a) &&& (s.operand m ^^^ t.a) &&& 0x80#8) != 0#8) ∧
      ZNOf t.a t ∧ Frame [.a] [.carry, .zero, .overflow, .sign] [] s t ∧
      ∀ b, ∃ t', exec i (s.assign .decimal b) = .next t' ∧ t'.a = t.a

/-- Derived. For each of the eight forms of SBC and every state: exec completes; A is (a0 - m - (1 - C)) mod 256,
Carry is 1 iff a0 >= m + (1 - C), Overflow is ((a0 ^ m) & (a0 ^ r) & 0x80) != 0, Zero and Sign are of the result;
every other register, flag and byte is as before, and Decimal is not read. The polarity of Carry is the spec's
decision D5. The opcode bytes and cycle counts of the forms are those the rules tabulate (D1, D4, log 16).
(40_arithmetic.md (SBC), 92_eei_decisions.md D5) -/
def Obligations.SbcSubtractsMemoryAndBorrow : Prop :=
  HasForms .sbc
    [(.immediate, 0xE9#8, 2, false), (.zeroPage, 0xE5#8, 3, false), (.zeroPageX, 0xF5#8, 4, false),
      (.absolute, 0xED#8, 4, false), (.absoluteX, 0xFD#8, 4, true), (.absoluteY, 0xF9#8, 4, true),
      (.indexedIndirect, 0xE1#8, 6, false), (.indirectIndexed, 0xF1#8, 5, true)] ∧
  ∀ (i : Instr) (m : EaMode) (s : State), i.mnemonic = .sbc → i.operand = .at m →
    ∃ t, exec i s = .next t ∧
      t.a = s.a - s.operand m - BitVec.ofNat 8 (1 - (s.flag .carry).toNat) ∧
      t.flag .carry = decide ((s.operand m).toNat + (1 - (s.flag .carry).toNat) ≤ s.a.toNat) ∧
      t.flag .overflow = (((s.a ^^^ s.operand m) &&& (s.a ^^^ t.a) &&& 0x80#8) != 0#8) ∧
      ZNOf t.a t ∧ Frame [.a] [.carry, .zero, .overflow, .sign] [] s t ∧
      ∀ b, ∃ t', exec i (s.assign .decimal b) = .next t' ∧ t'.a = t.a

/-- Derived. Reading A and the operand as two's-complement numbers: after ADC, V is 1 iff A + m + C lies outside
-128 to 127, and when V is 0 the signed value of the new A is that sum; after SBC the same of A - m - (1 - C).
(40_arithmetic.md (ADC, SBC, integer laws), 92_eei_decisions.md D5, 92_eei_decisions.md D6) -/
def Obligations.OverflowIsSignedOverflow : Prop :=
  ∀ (i : Instr) (m : EaMode) (s t : State), i.operand = .at m → exec i s = .next t →
    (i.mnemonic = .adc →
      t.flag .overflow = decide (s.a.toInt + (s.operand m).toInt + (s.flag .carry).toNat < -128 ∨
        127 < s.a.toInt + (s.operand m).toInt + (s.flag .carry).toNat) ∧
      (t.flag .overflow = false → t.a.toInt = s.a.toInt + (s.operand m).toInt + (s.flag .carry).toNat)) ∧
    (i.mnemonic = .sbc →
      t.flag .overflow = decide (s.a.toInt - (s.operand m).toInt - (1 - ((s.flag .carry).toNat : Int)) < -128 ∨
        127 < s.a.toInt - (s.operand m).toInt - (1 - ((s.flag .carry).toNat : Int))) ∧
      (t.flag .overflow = false →
        t.a.toInt = s.a.toInt - (s.operand m).toInt - (1 - ((s.flag .carry).toNat : Int))))

/-- For each of the eight forms of AND, ORA and EOR and every state: exec completes, bit k of the new A is the and,
inclusive or, exclusive or of bit k of A and of the operand, Zero and Sign are of the new A, and every other
register, flag and byte is as before. The opcode bytes and cycle counts of the forms are those the rules tabulate
(D1, D4, log 16). The meanings of the mnemonics are the spec's decision D23 (log 18). (R135, R136, R137) -/
def Obligations.LogicalOperationsWorkBitByBit : Prop :=
  HasForms .and
    [(.immediate, 0x29#8, 2, false), (.zeroPage, 0x25#8, 3, false), (.zeroPageX, 0x35#8, 4, false),
      (.absolute, 0x2D#8, 4, false), (.absoluteX, 0x3D#8, 4, true), (.absoluteY, 0x39#8, 4, true),
      (.indexedIndirect, 0x21#8, 6, false), (.indirectIndexed, 0x31#8, 5, true)] ∧
  HasForms .ora
    [(.immediate, 0x09#8, 2, false), (.zeroPage, 0x05#8, 3, false), (.zeroPageX, 0x15#8, 4, false),
      (.absolute, 0x0D#8, 4, false), (.absoluteX, 0x1D#8, 4, true), (.absoluteY, 0x19#8, 4, true),
      (.indexedIndirect, 0x01#8, 6, false), (.indirectIndexed, 0x11#8, 5, true)] ∧
  HasForms .eor
    [(.immediate, 0x49#8, 2, false), (.zeroPage, 0x45#8, 3, false), (.zeroPageX, 0x55#8, 4, false),
      (.absolute, 0x4D#8, 4, false), (.absoluteX, 0x5D#8, 4, true), (.absoluteY, 0x59#8, 4, true),
      (.indexedIndirect, 0x41#8, 6, false), (.indirectIndexed, 0x51#8, 5, true)] ∧
  ∀ (i : Instr) (m : EaMode) (s : State) (op : Bool → Bool → Bool), i.operand = .at m →
    (i.mnemonic = .and ∧ op = and) ∨ (i.mnemonic = .ora ∧ op = or) ∨ (i.mnemonic = .eor ∧ op = xor) →
    ∃ t, exec i s = .next t ∧
      (∀ k, k < 8 → t.a.getLsbD k = op (s.a.getLsbD k) ((s.operand m).getLsbD k)) ∧
      ZNOf t.a t ∧ Frame [.a] [.zero, .sign] [] s t

/-- For each form of ASL and ROL and every state exec completes; the operand is A in Accumulator mode and the byte
at the effective address otherwise; the result is 2v mod 256 (ASL) or (2v + C) mod 256 (ROL), Carry is bit 7 of v,
Zero and Sign are of the result; nothing else changes, A included in the memory forms. Nine ROLs on A restore A and
P.C. The opcode bytes and cycle counts of the forms are those the rules tabulate (D1, D4, log 16). Direction and
fill are the spec's decision D7 (log 18). (R140, R142) -/
def Obligations.LeftShiftsMoveBitSevenToCarry : Prop :=
  HasForms .asl
    [(.accumulator, 0x0A#8, 2, false), (.zeroPage, 0x06#8, 5, false), (.zeroPageX, 0x16#8, 6, false),
      (.absolute, 0x0E#8, 6, false), (.absoluteX, 0x1E#8, 7, false)] ∧
  HasForms .rol
    [(.accumulator, 0x2A#8, 2, false), (.zeroPage, 0x26#8, 5, false), (.zeroPageX, 0x36#8, 6, false),
      (.absolute, 0x2E#8, 6, false), (.absoluteX, 0x3E#8, 7, false)] ∧
  (∀ (i : Instr) (s : State), i.mnemonic = .asl →
    ReplacesOperand i s (fun v => BitVec.ofNat 8 (2 * v.toNat)) (fun v => decide (128 ≤ v.toNat))) ∧
  (∀ (i : Instr) (s : State), i.mnemonic = .rol →
    ReplacesOperand i s (fun v => BitVec.ofNat 8 (2 * v.toNat + (s.flag .carry).toNat))
      (fun v => decide (128 ≤ v.toNat))) ∧
  ∀ s : State, (Nat.iterate (rol none) 9 s).a = s.a ∧ (Nat.iterate (rol none) 9 s).flag .carry = s.flag .carry

/-- For each form of LSR and ROR and every state exec completes; the operand is A in Accumulator mode and the byte
at the effective address otherwise; the result is v / 2 (LSR) or v / 2 + 128 C (ROR), Carry is bit 0 of v, Zero and
Sign are of the result (so N is 0 after LSR and the old Carry after ROR); nothing else changes. The opcode bytes and
cycle counts of the forms are those the rules tabulate (D1, D4, log 16). Direction and fill are the spec's decision
D7 (log 18). (R141, R143) -/
def Obligations.RightShiftsMoveBitZeroToCarry : Prop :=
  HasForms .lsr
    [(.accumulator, 0x4A#8, 2, false), (.zeroPage, 0x46#8, 5, false), (.zeroPageX, 0x56#8, 6, false),
      (.absolute, 0x4E#8, 6, false), (.absoluteX, 0x5E#8, 7, false)] ∧
  HasForms .ror
    [(.accumulator, 0x6A#8, 2, false), (.zeroPage, 0x66#8, 5, false), (.zeroPageX, 0x76#8, 6, false),
      (.absolute, 0x6E#8, 6, false), (.absoluteX, 0x7E#8, 7, false)] ∧
  (∀ (i : Instr) (s : State), i.mnemonic = .lsr →
    ReplacesOperand i s (fun v => BitVec.ofNat 8 (v.toNat / 2)) (fun v => decide (v.toNat % 2 = 1)) ∧
    ∀ t, exec i s = .next t → t.flag .sign = false) ∧
  ∀ (i : Instr) (s : State), i.mnemonic = .ror →
    ReplacesOperand i s (fun v => BitVec.ofNat 8 (v.toNat / 2 + 128 * (s.flag .carry).toNat))
      (fun v => decide (v.toNat % 2 = 1)) ∧
    ∀ t, exec i s = .next t → t.flag .sign = s.flag .carry

/-- For each form of CMP, CPX and CPY, with g the value of A, X or Y and v the operand: exec completes, Carry is 1
iff g >= v unsigned, Zero is 1 iff g = v, Sign is bit 7 of (g - v) mod 256; no register, no other flag and no byte
changes, and Carry before is not read. The opcode bytes and cycle counts of the forms are those the rules tabulate
(D1, D4, log 16). The polarity of Carry and the registers compared are the spec's decisions D5 and D23 (log 18).
(R145, R146, R147) -/
def Obligations.ComparesSetFlagsFromTheDifference : Prop :=
  HasForms .cmp
    [(.immediate, 0xC9#8, 2, false), (.zeroPage, 0xC5#8, 3, false), (.zeroPageX, 0xD5#8, 4, false),
      (.absolute, 0xCD#8, 4, false), (.absoluteX, 0xDD#8, 4, true), (.absoluteY, 0xD9#8, 4, true),
      (.indexedIndirect, 0xC1#8, 6, false), (.indirectIndexed, 0xD1#8, 5, true)] ∧
  HasForms .cpx
    [(.immediate, 0xE0#8, 2, false), (.zeroPage, 0xE4#8, 3, false), (.absolute, 0xEC#8, 4, false)] ∧
  HasForms .cpy
    [(.immediate, 0xC0#8, 2, false), (.zeroPage, 0xC4#8, 3, false), (.absolute, 0xCC#8, 4, false)] ∧
  ∀ (i : Instr) (m : EaMode) (s : State) (g : Byte), i.operand = .at m →
    (i.mnemonic, g) ∈ [(Mnemonic.cmp, s.a), (.cpx, s.x), (.cpy, s.y)] →
    ∃ t, exec i s = .next t ∧
      t.flag .carry = decide ((s.operand m).toNat ≤ g.toNat) ∧
      t.flag .zero = decide (g = s.operand m) ∧
      t.flag .sign = (g - s.operand m).getLsbD 7 ∧
      Frame [] [.carry, .zero, .sign] [] s t

/-- For BPL, BMI, BVC, BVS, BCC, BCS, BNE, BEQ and every offset and state: exec completes; PC becomes the
post-instruction PC plus the offset modulo 2^16 when the flag tested has the value that takes the branch and stays
otherwise; no flag, no other register and no byte changes; the total is 2 not taken, 3 taken on the same page, 4
taken to another page than the post-instruction PC's. The opcode bytes and cycle counts of the forms are those the
rules tabulate (D1, D4, log 16). Which flag each tests is the spec's decision D23 (log 18), the base of the page
cross D27. (R150, R151, R152, R153, R154, R155, R156, R157, R158) -/
def Obligations.BranchesTestTheirFlag : Prop :=
  HasForms .bpl
    [(.relative, 0x10#8, 2, false)] ∧
  HasForms .bmi
    [(.relative, 0x30#8, 2, false)] ∧
  HasForms .bvc
    [(.relative, 0x50#8, 2, false)] ∧
  HasForms .bvs
    [(.relative, 0x70#8, 2, false)] ∧
  HasForms .bcc
    [(.relative, 0x90#8, 2, false)] ∧
  HasForms .bcs
    [(.relative, 0xB0#8, 2, false)] ∧
  HasForms .bne
    [(.relative, 0xD0#8, 2, false)] ∧
  HasForms .beq
    [(.relative, 0xF0#8, 2, false)] ∧
  ∀ (i : Instr) (off : Int) (s : State) (f : Flag) (b : Bool), i.operand = .at (.relative off) →
    (i.mnemonic, f, b) ∈ branchTests →
    ∃ t, exec i s = .next t ∧
      t.pc = (if s.flag f = b then s.pc + BitVec.ofInt 16 off else s.pc) ∧
      Frame [.pc] [] [] s t ∧
      ∀ r, lookupOpcode i.opcode = some r →
        cycleTotal r i s = if s.flag f = b then (if hi8 (s.pc + BitVec.ofInt 16 off) = hi8 s.pc then 3 else 4) else 2

/-- For each form of INC and DEC and every state: exec completes, the byte at the effective address becomes itself
plus one, or minus one, modulo 256, Zero and Sign are of the new byte, and no register, no other flag and no other
byte changes. The opcode bytes and cycle counts of the forms are those the rules tabulate (D1, D4, log 16). The
amount is the spec's decision D23 (log 18). (R160, R161) -/
def Obligations.IncAndDecChangeMemoryByOne : Prop :=
  HasForms .inc
    [(.zeroPage, 0xE6#8, 5, false), (.zeroPageX, 0xF6#8, 6, false), (.absolute, 0xEE#8, 6, false),
      (.absoluteX, 0xFE#8, 7, false)] ∧
  HasForms .dec
    [(.zeroPage, 0xC6#8, 5, false), (.zeroPageX, 0xD6#8, 6, false), (.absolute, 0xCE#8, 6, false),
      (.absoluteX, 0xDE#8, 7, false)] ∧
  ∀ (i : Instr) (m : EaMode) (s : State) (k : Nat), i.operand = .at m →
    (i.mnemonic, k) ∈ [(Mnemonic.inc, 1), (.dec, 255)] →
    ∃ t, exec i s = .next t ∧
      Reads t (s.ea m) (BitVec.ofNat 8 ((s.get (s.ea m)).toNat + k)) ∧
      ZNOf (BitVec.ofNat 8 ((s.get (s.ea m)).toNat + k)) t ∧
      Frame [] [.zero, .sign] [s.ea m] s t

/-- For every state INX, INY, DEX and DEY complete: X or Y becomes itself plus one or minus one modulo 256, Zero and
Sign are of the new value, and every other register, flag and byte is as before. The opcode bytes and cycle counts
of the forms are those the rules tabulate (D1, D4, log 16). The amount and the registers are the spec's decision D23
(log 18). (R162, R163, R164, R165) -/
def Obligations.IndexRegistersCountByOne : Prop :=
  HasImpliedForm .inx 0xE8#8 2 ∧
  HasImpliedForm .iny 0xC8#8 2 ∧
  HasImpliedForm .dex 0xCA#8 2 ∧
  HasImpliedForm .dey 0x88#8 2 ∧
  ∀ (i : Instr) (s : State),
    (i.mnemonic = .inx → ∃ t, exec i s = .next t ∧ t.x = BitVec.ofNat 8 (s.x.toNat + 1) ∧ ZNOf t.x t ∧
      Frame [.x] [.zero, .sign] [] s t) ∧
    (i.mnemonic = .iny → ∃ t, exec i s = .next t ∧ t.y = BitVec.ofNat 8 (s.y.toNat + 1) ∧ ZNOf t.y t ∧
      Frame [.y] [.zero, .sign] [] s t) ∧
    (i.mnemonic = .dex → ∃ t, exec i s = .next t ∧ t.x = BitVec.ofNat 8 (s.x.toNat + 255) ∧ ZNOf t.x t ∧
      Frame [.x] [.zero, .sign] [] s t) ∧
    (i.mnemonic = .dey → ∃ t, exec i s = .next t ∧ t.y = BitVec.ofNat 8 (s.y.toNat + 255) ∧ ZNOf t.y t ∧
      Frame [.y] [.zero, .sign] [] s t)

/-- For each form of LDA, LDX and LDY and every state: exec completes, A, X or Y is the operand byte, Zero and Sign
are of it, and every other register, flag and byte is as before. LDX has no mode indexed by X and LDY none indexed
by Y. The opcode bytes and cycle counts of the forms are those the rules tabulate (D1, D4, log 16). Which register
each loads is the spec's decision D23 (log 18). (R170, R171, R172) -/
def Obligations.LoadsPutTheOperandInTheRegister : Prop :=
  HasForms .lda
    [(.immediate, 0xA9#8, 2, false), (.zeroPage, 0xA5#8, 3, false), (.zeroPageX, 0xB5#8, 4, false),
      (.absolute, 0xAD#8, 4, false), (.absoluteX, 0xBD#8, 4, true), (.absoluteY, 0xB9#8, 4, true),
      (.indexedIndirect, 0xA1#8, 6, false), (.indirectIndexed, 0xB1#8, 5, true)] ∧
  HasForms .ldx
    [(.immediate, 0xA2#8, 2, false), (.zeroPage, 0xA6#8, 3, false), (.zeroPageY, 0xB6#8, 4, false),
      (.absolute, 0xAE#8, 4, false), (.absoluteY, 0xBE#8, 4, true)] ∧
  HasForms .ldy
    [(.immediate, 0xA0#8, 2, false), (.zeroPage, 0xA4#8, 3, false), (.zeroPageX, 0xB4#8, 4, false),
      (.absolute, 0xAC#8, 4, false), (.absoluteX, 0xBC#8, 4, true)] ∧
  ∀ (i : Instr) (m : EaMode) (s : State), i.operand = .at m →
    (i.mnemonic = .lda → ∃ t, exec i s = .next t ∧ t.a = s.operand m ∧ ZNOf (s.operand m) t ∧
      Frame [.a] [.zero, .sign] [] s t) ∧
    (i.mnemonic = .ldx → ∃ t, exec i s = .next t ∧ t.x = s.operand m ∧ ZNOf (s.operand m) t ∧
      Frame [.x] [.zero, .sign] [] s t) ∧
    (i.mnemonic = .ldy → ∃ t, exec i s = .next t ∧ t.y = s.operand m ∧ ZNOf (s.operand m) t ∧
      Frame [.y] [.zero, .sign] [] s t)

/-- For each form of STA, STX and STY and every state: exec completes; the byte at the effective address, through
every alias of it, is A, X or Y; every other byte, every register and every flag is as before. It lands at fold(ea),
in any range. The opcode bytes and cycle counts of the forms are those the rules tabulate (D1, D4, log 16). Which
register each stores is the spec's decision D23 (log 18). (R173, R174, R175) -/
def Obligations.StoresWriteTheRegisterToMemory : Prop :=
  HasForms .sta
    [(.zeroPage, 0x85#8, 3, false), (.zeroPageX, 0x95#8, 4, false), (.absolute, 0x8D#8, 4, false),
      (.absoluteX, 0x9D#8, 5, false), (.absoluteY, 0x99#8, 5, false), (.indexedIndirect, 0x81#8, 6, false),
      (.indirectIndexed, 0x91#8, 6, false)] ∧
  HasForms .stx
    [(.zeroPage, 0x86#8, 3, false), (.zeroPageY, 0x96#8, 4, false), (.absolute, 0x8E#8, 4, false)] ∧
  HasForms .sty
    [(.zeroPage, 0x84#8, 3, false), (.zeroPageX, 0x94#8, 4, false), (.absolute, 0x8C#8, 4, false)] ∧
  ∀ (i : Instr) (m : EaMode) (s : State) (g : Byte), i.operand = .at m →
    (i.mnemonic, g) ∈ [(Mnemonic.sta, s.a), (.stx, s.x), (.sty, s.y)] →
    ∃ t, exec i s = .next t ∧ Reads t (s.ea m) g ∧
      t.mem.readCell (fold s.cfg.prgMirror (s.ea m)).toNat = g ∧ Frame [] [] [s.ea m] s t

/-- For every state each transfer completes: the destination becomes the source, the source is unchanged; Zero and
Sign are of the value, but for TXS, which writes no flag; every other register, flag and byte is as before. The
opcode bytes and cycle counts of the forms are those the rules tabulate (D1, D4, log 16). Source and destination of
each are the spec's decision D23 (log 18). (R180, R181, R182, R183, R184, R185) -/
def Obligations.TransfersCopyARegister : Prop :=
  HasImpliedForm .tax 0xAA#8 2 ∧
  HasImpliedForm .tay 0xA8#8 2 ∧
  HasImpliedForm .txa 0x8A#8 2 ∧
  HasImpliedForm .tya 0x98#8 2 ∧
  HasImpliedForm .tsx 0xBA#8 2 ∧
  HasImpliedForm .txs 0x9A#8 2 ∧
  ∀ (i : Instr) (s : State),
    (i.mnemonic = .tax → ∃ t, exec i s = .next t ∧ t.x = s.a ∧ ZNOf s.a t ∧ Frame [.x] [.zero, .sign] [] s t) ∧
    (i.mnemonic = .tay → ∃ t, exec i s = .next t ∧ t.y = s.a ∧ ZNOf s.a t ∧ Frame [.y] [.zero, .sign] [] s t) ∧
    (i.mnemonic = .txa → ∃ t, exec i s = .next t ∧ t.a = s.x ∧ ZNOf s.x t ∧ Frame [.a] [.zero, .sign] [] s t) ∧
    (i.mnemonic = .tya → ∃ t, exec i s = .next t ∧ t.a = s.y ∧ ZNOf s.y t ∧ Frame [.a] [.zero, .sign] [] s t) ∧
    (i.mnemonic = .tsx → ∃ t, exec i s = .next t ∧ t.x = s.sp ∧ ZNOf s.sp t ∧ Frame [.x] [.zero, .sign] [] s t) ∧
    (i.mnemonic = .txs → ∃ t, exec i s = .next t ∧ t.sp = s.x ∧ Frame [.sp] [] [] s t)

/-- Derived. For every state PHA and PHP complete: the byte at 0x0100 + SP (SP before) is A, or P | 0x30; SP
decreases by one modulo 256; every other register, every flag (Break included) and every other byte is as before.
The opcode bytes and cycle counts of the forms are those the rules tabulate (D1, D4, log 16). That PHP leaves P as
it was, Break included, is the sentence "P itself is not changed, in particular P.B is not set by PHP [derived:
...]" of its rule, an inference the spec marks as its own. (47_transfers_stack.md section 2 (PHA, PHP)) -/
def Obligations.PushesStoreAtTheStackPointer : Prop :=
  HasImpliedForm .pha 0x48#8 3 ∧
  HasImpliedForm .php 0x08#8 3 ∧
  ∀ (i : Instr) (s : State) (v : Byte), (i.mnemonic, v) ∈ [(Mnemonic.pha, s.a), (.php, s.p ||| 0x30#8)] →
    ∃ t, exec i s = .next t ∧ Reads t (stackByte s.sp) v ∧ t.sp = s.sp - 1#8 ∧
      t.p = s.p ∧ Frame [.sp] [] [stackByte s.sp] s t

/-- Derived. For every state PLA and PLP complete: SP increases by one modulo 256; the byte at 0x0100 + SP (the new
SP) goes to A with Zero and Sign of it, or to P verbatim; every other register, flag and every byte is as before.
PLA's flags are the spec's decision D12, PLP's verbatim load its decision D11. The opcode bytes and cycle counts of
the forms are those the rules tabulate (D1, D4, log 16). (47_transfers_stack.md section 2 (PLA, PLP),
92_eei_decisions.md D11, 92_eei_decisions.md D12) -/
def Obligations.PullsLoadFromTheStack : Prop :=
  HasImpliedForm .pla 0x68#8 4 ∧
  HasImpliedForm .plp 0x28#8 4 ∧
  ∀ (i : Instr) (s : State),
    (i.mnemonic = .pla → ∃ t, exec i s = .next t ∧ t.sp = s.sp + 1#8 ∧ t.a = s.get (stackByte (s.sp + 1#8)) ∧
      ZNOf t.a t ∧ Frame [.a, .sp] [.zero, .sign] [] s t) ∧
    (i.mnemonic = .plp → ∃ t, exec i s = .next t ∧ t.sp = s.sp + 1#8 ∧ t.p = s.get (stackByte (s.sp + 1#8)) ∧
      Frame [.sp] allFlags [] s t)

/-- For both forms of JMP and every state: exec completes; PC is the 16-bit operand (Absolute), or the word read
through the pointer (Indirect), whose high byte comes from the start of the same page when the pointer's low byte is
0xFF; no flag, no other register and no byte changes. The opcode bytes and cycle counts of the forms are those the
rules tabulate (D1, D4, log 16). (R190) -/
def Obligations.JmpLoadsThePC : Prop :=
  HasForms .jmp
    [(.absolute, 0x4C#8, 3, false), (.indirect, 0x6C#8, 5, false)] ∧
  (∀ (i : Instr) (m : EaMode) (s : State), i.mnemonic = .jmp → i.operand = .at m →
    ∃ t, exec i s = .next t ∧ t.pc = s.ea m ∧ Frame [.pc] [] [] s t) ∧
  (∀ (w : Word) (s : State), ∃ t, exec (.jmpAbs w) s = .next t ∧ t.pc = w) ∧
  ∀ (w : Word) (s : State), ∃ t, exec (.jmpInd w) s = .next t ∧
    t.pc = s.get (if w.toNat % 256 = 0xFF then w &&& 0xFF00#16 else w + 1#16) ++ s.get w

/-- Derived. For every state (PC already the return address): exec completes; the high byte of PC - 1 is at 0x0100 +
SP and the low byte at 0x0100 + SP - 1, SP decreases by 2 modulo 256, PC is the operand; no flag, no other register
and no other byte changes. The byte order is the spec's decision D10. The opcode bytes and cycle counts of the forms
are those the rules tabulate (D1, D4, log 16). (48_control_nop.md (JSR), 92_eei_decisions.md D10) -/
def Obligations.JsrPushesTheAddressOfItsLastByte : Prop :=
  HasForms .jsr
    [(.absolute, 0x20#8, 6, false)] ∧
  ∀ (i : Instr) (w : Word) (s : State), i.mnemonic = .jsr → i.operand = .at (.absolute w) →
    ∃ t, exec i s = .next t ∧ t.pc = w ∧ t.sp = s.sp - 2#8 ∧
      Reads t (stackByte s.sp) (hi8 (s.pc - 1#16)) ∧ Reads t (stackByte (s.sp - 1#8)) (lo8 (s.pc - 1#16)) ∧
      Frame [.pc, .sp] [] [stackByte s.sp, stackByte (s.sp - 1#8)] s t

/-- Derived. For every state: exec completes; PC is {byte at 0x0100 + SP + 2, byte at 0x0100 + SP + 1} plus 1 modulo
2^16, the stack positions modulo 256; SP increases by 2; no flag, no other register and no byte changes. The byte
order is the spec's decision D10. The opcode bytes and cycle counts of the forms are those the rules tabulate (D1,
D4, log 16). (48_control_nop.md (RTS), 92_eei_decisions.md D10) -/
def Obligations.RtsReturnsPastThePulledAddress : Prop :=
  HasImpliedForm .rts 0x60#8 6 ∧
  ∀ (i : Instr) (s : State), i.mnemonic = .rts →
    ∃ t, exec i s = .next t ∧
      t.pc = (s.get (stackByte (s.sp + 2#8)) ++ s.get (stackByte (s.sp + 1#8))) + 1#16 ∧
      t.sp = s.sp + 2#8 ∧ Frame [.pc, .sp] [] [] s t

/-- Derived. For every state: exec completes; P is the byte at 0x0100 + SP + 1, PC is {byte at SP + 3, byte at SP +
2} as it is, SP increases by 3, all modulo 256; A, X, Y and every byte of memory are as before. The verbatim load of
P and the byte order are the spec's decisions D11 and D10. The opcode bytes and cycle counts of the forms are those
the rules tabulate (D1, D4, log 16). (48_control_nop.md (RTI), 60_exceptions.md section 3 (Trap return),
92_eei_decisions.md D10, 92_eei_decisions.md D11) -/
def Obligations.RtiRestoresTheFlagsAndThePC : Prop :=
  HasImpliedForm .rti 0x40#8 6 ∧
  ∀ (i : Instr) (s : State), i.mnemonic = .rti →
    ∃ t, exec i s = .next t ∧ t.p = s.get (stackByte (s.sp + 1#8)) ∧
      t.pc = s.get (stackByte (s.sp + 3#8)) ++ s.get (stackByte (s.sp + 2#8)) ∧
      t.sp = s.sp + 3#8 ∧ Frame [.pc, .sp] allFlags [] s t

/-- Derived. For every state (PC already pc0 + 1): exec completes; PC high, PC low and P | 0x30 stand at 0x0100 + SP
downwards, SP decreases by 3 modulo 256, Break and InterruptDisable are 1, PC is {get(0xFFFF), get(0xFFFE)}; A, X,
Y, the other six flags and every other byte are as before. The PC pushed, the vector's place, InterruptDisable and
the push order are the spec's decisions D9 and D10. The opcode bytes and cycle counts of the forms are those the
rules tabulate (D1, D4, log 16). (48_control_nop.md (BRK), 60_exceptions.md section 3 (Trap entry),
92_eei_decisions.md D9, 92_eei_decisions.md D10) -/
def Obligations.BrkEntersTheTrap : Prop :=
  HasImpliedForm .brk 0x00#8 7 ∧
  ∀ (i : Instr) (s : State), i.mnemonic = .brk →
    ∃ t, exec i s = .next t ∧
      Reads t (stackByte s.sp) (hi8 s.pc) ∧ Reads t (stackByte (s.sp - 1#8)) (lo8 s.pc) ∧
      Reads t (stackByte (s.sp - 2#8)) (s.p ||| 0x30#8) ∧ t.sp = s.sp - 3#8 ∧
      t.flag .brk = true ∧ t.flag .interruptDisable = true ∧
      t.pc = s.get 0xFFFF#16 ++ s.get 0xFFFE#16 ∧
      Frame [.pc, .sp] [.brk, .interruptDisable]
        [stackByte s.sp, stackByte (s.sp - 1#8), stackByte (s.sp - 2#8)] s t

/-- NOP is the one byte 0xEA, 2 cycles, length 1. For every state exec answers exactly that state; so a step that
fetches 0xEA changes PC by 1 and nothing else. The opcode bytes and cycle counts of the forms are those the rules
tabulate (D1, D4, log 16). (R195) -/
def Obligations.NopChangesNothing : Prop :=
  HasImpliedForm .nop 0xEA#8 2 ∧
  (∀ (i : Instr) (s : State), i.mnemonic = .nop → i.length = 1 ∧ exec i s = .next s) ∧
  ∀ s : State, s.get s.pc = 0xEA#8 → step s = .next { s with pc := s.pc + 1#16 }

/-- Derived. For every state each of the seven completes: its flag gets its value; every other flag, every register
and every byte is as before. That these instructions exist is the spec's decision D2 (log 17). The opcode bytes and
cycle counts of the forms are those the rules tabulate (D1, D4, log 16). (49_flagops_bit.md (CLC, SEC, CLI, SEI,
CLV, CLD, SED), 92_eei_decisions.md D2) -/
def Obligations.FlagInstructionsWriteOneFlag : Prop :=
  HasImpliedForm .clc 0x18#8 2 ∧
  HasImpliedForm .sec 0x38#8 2 ∧
  HasImpliedForm .cli 0x58#8 2 ∧
  HasImpliedForm .sei 0x78#8 2 ∧
  HasImpliedForm .clv 0xB8#8 2 ∧
  HasImpliedForm .cld 0xD8#8 2 ∧
  HasImpliedForm .sed 0xF8#8 2 ∧
  ∀ (i : Instr) (s : State) (f : Flag) (b : Bool),
    (i.mnemonic, f, b) ∈ [(Mnemonic.clc, Flag.carry, false), (.sec, .carry, true), (.cli, .interruptDisable, false),
      (.sei, .interruptDisable, true), (.clv, .overflow, false), (.cld, .decimal, false), (.sed, .decimal, true)] →
    ∃ t, exec i s = .next t ∧ t.flag f = b ∧ Frame [] [f] [] s t

/-- Derived. For both forms of BIT and every state: exec completes; Zero is 1 iff A & m = 0, Sign is bit 7 of m,
Overflow bit 6 of m; no register, no other flag and no byte changes. That BIT exists is the spec's decision D2 (log
17). The opcode bytes and cycle counts of the forms are those the rules tabulate (D1, D4, log 16).
(49_flagops_bit.md (BIT), 92_eei_decisions.md D2) -/
def Obligations.BitTestsMemoryAgainstTheAccumulator : Prop :=
  HasForms .bit
    [(.zeroPage, 0x24#8, 3, false), (.absolute, 0x2C#8, 4, false)] ∧
  ∀ (i : Instr) (m : EaMode) (s : State), i.mnemonic = .bit → i.operand = .at m →
    ∃ t, exec i s = .next t ∧
      (t.flag .zero = true ↔ ∀ k, k < 8 → (s.a.getLsbD k && (s.operand m).getLsbD k) = false) ∧
      t.flag .sign = (s.operand m).getLsbD 7 ∧ t.flag .overflow = (s.operand m).getLsbD 6 ∧
      Frame [] [.zero, .overflow, .sign] [] s t

/-- Derived. From every state, run BRK; whatever PC the handler's RTI has been fetched at, RTI leads to PC = pc0 of
BRK + 1 (PC when BRK was executed), P = P before with Break and Unused 1, SP, A, X, Y and the configuration as
before the BRK. (48_control_nop.md (RTI corner cases), 60_exceptions.md section 3, 92_eei_decisions.md D9) -/
def Obligations.RtiUndoesBrk : Prop :=
  ∀ (i j : Instr) (s t : State) (pc : Word), i.mnemonic = .brk → j.mnemonic = .rti → exec i s = .next t →
    ∃ u, exec j { t with pc := pc } = .next u ∧ u.pc = s.pc ∧ u.p = s.p ||| 0x30#8 ∧ u.sp = s.sp ∧
      Frame [] [.brk, .unused] [stackByte s.sp, stackByte (s.sp - 1#8), stackByte (s.sp - 2#8)] s u

/-- Derived. From every state, run JSR; whatever PC the subroutine's RTS has been fetched at, RTS leads to PC = the
return address of the JSR, with SP, A, X, Y, every flag and every byte outside the two pushed as before the JSR.
(48_control_nop.md (JSR, RTS), 92_eei_decisions.md D10) -/
def Obligations.RtsUndoesJsr : Prop :=
  ∀ (i j : Instr) (s t : State) (pc : Word), i.mnemonic = .jsr → j.mnemonic = .rts → exec i s = .next t →
    ∃ u, exec j { t with pc := pc } = .next u ∧ u.pc = s.pc ∧ u.sp = s.sp ∧
      Frame [] [] [stackByte s.sp, stackByte (s.sp - 1#8)] s u

/-- Derived. For every state whose opcode byte has a row r: the total is the base count, plus 1 if the mode crossed
a page and r pays for it, plus 1 if it is a branch that is taken, plus 1 more if its target is on another page than
pc0 + 2; it is between 2 and 7; r pays the page-cross cycle exactly for the reading instructions in AbsoluteX,
AbsoluteY and IndirectIndexed. The counts are the spec's decision D4, the base of the branch's page cross D27.
(30_encoding.md section 3 (The step, cycle total), 70_reset_and_hazards.md section 5 (Timing), 92_eei_decisions.md
D4, 92_eei_decisions.md D27) -/
def Obligations.CycleTotalFollowsItsFormula : Prop :=
  ∀ (s : State) (r : OpcodeRow), lookupOpcode (s.get s.pc) = some r →
    ∃ (i : Instr) (n : Nat), s.fetch = some i ∧ s.stepCycles = some n ∧ 2 ≤ n ∧ n ≤ 7 ∧
      (∀ m, i.operand = .at m → (∀ f b, (r.mnemonic, f, b) ∈ branchTests → s.flag f ≠ b) →
        n = r.baseCycles + if (s.advance r.mode.length).pageCrossed m = true ∧ r.pagePenalty = true then 1 else 0) ∧
      (i.operand = .implied ∨ i.operand = .accumulator → n = r.baseCycles) ∧
      (∀ off f b, i.operand = .at (.relative off) → (r.mnemonic, f, b) ∈ branchTests → s.flag f = b →
        n = r.baseCycles + 1 +
          if hi8 (s.pc + 2#16 + BitVec.ofInt 16 off) = hi8 (s.pc + 2#16) then 0 else 1) ∧
      (r.pagePenalty = true ↔ r.mode ∈ [Mode.absoluteX, .absoluteY, .indirectIndexed] ∧
        r.mnemonic ∈ [.adc, .and, .cmp, .eor, .lda, .ldx, .ldy, .ora, .sbc])
end

