-- ==== Sys2Proof/Laws/Bits.lean ====
section
/-! SUPPORT. Laws of the halves of a word, of a word made of two bytes, and of the signed offset. -/

namespace Sys2Proof.Laws

/-- `{h, l}` is `h * 256 + l`. -/
theorem toNat_pair (h l : Byte) : (pair h l).toNat = h.toNat * 256 + l.toNat := by
  have := l.isLt
  simp only [pair, BitVec.toNat_append]
  rw [← Nat.shiftLeft_add_eq_or_of_lt (by omega), Nat.shiftLeft_eq]

@[simp] theorem hi8_pair (h l : Byte) : hi8 (pair h l) = h := by
  apply BitVec.eq_of_toNat_eq
  have := h.isLt
  have := l.isLt
  simp only [hi8, BitVec.toNat_setWidth, BitVec.toNat_ushiftRight, toNat_pair, Nat.shiftRight_eq_div_pow]
  omega

@[simp] theorem lo8_pair (h l : Byte) : lo8 (pair h l) = l := by
  apply BitVec.eq_of_toNat_eq
  have := l.isLt
  simp only [lo8, BitVec.toNat_setWidth, toNat_pair]
  omega

@[simp] theorem pair_hi8_lo8 (w : Word) : pair (hi8 w) (lo8 w) = w := by
  apply BitVec.eq_of_getLsbD_eq
  intro i hi
  simp only [hi8, lo8, pair, BitVec.getLsbD_append, BitVec.getLsbD_setWidth, BitVec.getLsbD_ushiftRight]
  by_cases h : i < 8
  · simp [h]
  · simp [h, show i - 8 < 8 by omega, show 8 + (i - 8) = i by omega]

@[simp] theorem toNat_zext16 (v : Byte) : (zext16 v).toNat = v.toNat := by
  have := v.isLt
  simp only [zext16, BitVec.toNat_setWidth]
  omega

theorem signedOffset_range (d : Byte) : -128 ≤ signedOffset d ∧ signedOffset d ≤ 127 := by
  have h₁ := BitVec.le_toInt d
  have h₂ := BitVec.toInt_lt (x := d)
  simp only [signedOffset] at *
  omega

@[simp] theorem offsetByte_signedOffset (d : Byte) : offsetByte (signedOffset d) = d := by
  simp [offsetByte, signedOffset]

theorem signedOffset_offsetByte (off : Int) (h₁ : -128 ≤ off) (h₂ : off ≤ 127) :
    signedOffset (offsetByte off) = off := by
  simp only [signedOffset, offsetByte, BitVec.toInt_ofInt]
  exact Int.bmod_eq_of_le (by omega) (by omega)

end Sys2Proof.Laws
end

