-- ==== Sys2Proof/Laws/Decode.lean ====
section
/-! SUPPORT. Laws of the decoder and the encoder. -/

namespace Sys2Proof.Laws

/-- The length of an encoding is the instruction's length. -/
theorem length_encode (i : Instr) : (encode i).length = i.length := by
  cases i <;> rfl

/-- Decoding some bytes, by what the table says of the first (30_encoding.md R98 step 1). -/
theorem decode_cons (op : Byte) (rest : List Byte) :
    decode (op :: rest) =
      match lookupOpcode op with
      | none => .error (.unimplementedOpcode op)
      | some r =>
        if rest.length + 1 < r.mode.length then .error .truncated
        else .ok (r.build (rest.getD 0 0#8) (rest.getD 1 0#8), rest.drop (r.mode.length - 1)) := rfl

/-- On three bytes the list decoder answers what `decodeInstr` answers. -/
theorem decode_three (op b₁ b₂ : Byte) :
    (match decode [op, b₁, b₂] with
      | .ok (i, _) => some i
      | .error _ => none) = decodeInstr op b₁ b₂ := by
  have hl : ∀ m : Mode, ¬ 2 + 1 < m.length := by
    intro m
    cases m <;> decide
  rw [decode_cons, decodeInstr]
  cases lookupOpcode op with
  | none => rfl
  | some r => simp [hl r.mode]

/-- A word's two operand bytes make the word again. -/
@[simp] theorem wordOperand_bytes (f : Word → Instr) (w : Word) : wordOperand f (lo8 w) (hi8 w) = f w := by
  simp [wordOperand]

/-- An offset's operand byte makes the offset again, within the range of a signed byte. -/
theorem offsetOperand_byte (f : Int → Instr) (off : Int) (b : Byte) (h : (EaMode.relative off).wf = true) :
    offsetOperand f (offsetByte off) b = f off := by
  simp only [EaMode.wf, Bool.and_eq_true, decide_eq_true_eq] at h
  rw [offsetOperand, signedOffset_offsetByte off h.1 h.2]

end Sys2Proof.Laws
end

