-- ==== Sys2Proof/Laws/Effect.lean ====
section
/-! SUPPORT. `exec` said once by mnemonic and operand: the case analysis over the 151 constructors is made here, and a
proof about all instructions goes by the 56 mnemonics. -/

namespace Sys2Proof.Laws

open Sys2Proof.Machine

/-- The effective address of an operand, none in Accumulator mode (30_encoding.md R105). -/
def targetOf (o : Operand) (s : State) : Option Word :=
  match o with
  | .at m => some (s.ea m)
  | .implied => none
  | .accumulator => none

/-- An operation on an effective-address mode. -/
def onAddress (f : EaMode → State → State) (o : Operand) (s : State) : State :=
  match o with
  | .at m => f m s
  | .implied => s
  | .accumulator => s

/-- An operation on a branch offset. -/
def onOffset (f : Int → State → State) (o : Operand) (s : State) : State :=
  match o with
  | .at (.relative off) => f off s
  | _ => s

/-- The effect of a mnemonic on an operand. -/
def effect : Mnemonic → Operand → State → State
  | .adc => onAddress adc
  | .sbc => onAddress sbc
  | .and => onAddress andA
  | .ora => onAddress oraA
  | .eor => onAddress eorA
  | .asl => fun o s => asl (targetOf o s) s
  | .lsr => fun o s => lsr (targetOf o s) s
  | .rol => fun o s => rol (targetOf o s) s
  | .ror => fun o s => ror (targetOf o s) s
  | .cmp => onAddress cmp
  | .cpx => onAddress cpx
  | .cpy => onAddress cpy
  | .bpl => onOffset (branchOn .sign false)
  | .bmi => onOffset (branchOn .sign true)
  | .bvc => onOffset (branchOn .overflow false)
  | .bvs => onOffset (branchOn .overflow true)
  | .bcc => onOffset (branchOn .carry false)
  | .bcs => onOffset (branchOn .carry true)
  | .bne => onOffset (branchOn .zero false)
  | .beq => onOffset (branchOn .zero true)
  | .inc => onAddress inc
  | .dec => onAddress dec
  | .inx => fun _ => inx
  | .iny => fun _ => iny
  | .dex => fun _ => dex
  | .dey => fun _ => dey
  | .lda => onAddress lda
  | .ldx => onAddress ldx
  | .ldy => onAddress ldy
  | .sta => onAddress sta
  | .stx => onAddress stx
  | .sty => onAddress sty
  | .tax => fun _ s => (s.setX s.a).writeZN s.a
  | .tay => fun _ s => (s.setY s.a).writeZN s.a
  | .txa => fun _ s => (s.setA s.x).writeZN s.x
  | .tya => fun _ s => (s.setA s.y).writeZN s.y
  | .tsx => fun _ s => (s.setX s.sp).writeZN s.sp
  | .txs => fun _ s => s.setSP s.x
  | .pha => fun _ s => s.push8 s.a
  | .php => fun _ s => s.push8 (pushedStatus s.p)
  | .pla => fun _ s => (s.popped.setA s.top8).writeZN s.top8
  | .plp => fun _ s => s.popped.setP s.top8
  | .jmp => onAddress jmp
  | .jsr => onAddress jsr
  | .rts => fun _ => rts
  | .rti => fun _ s => s.trapReturn
  | .brk => fun _ s => s.trapEntry
  | .nop => fun _ s => s
  | .clc => fun _ s => s.assign .carry false
  | .sec => fun _ s => s.assign .carry true
  | .cli => fun _ s => s.assign .interruptDisable false
  | .sei => fun _ s => s.assign .interruptDisable true
  | .clv => fun _ s => s.assign .overflow false
  | .cld => fun _ s => s.assign .decimal false
  | .sed => fun _ s => s.assign .decimal true
  | .bit => onAddress bitTest

/-- Every instruction completes, with the effect of its mnemonic on its operand. -/
theorem exec_eq_effect (i : Instr) (s : State) : exec i s = .next (effect i.mnemonic i.operand s) := by
  cases i <;> rfl

end Sys2Proof.Laws
end

