-- ==== Sys2Proof/Laws/Flags.lean ====
section
/-! SUPPORT. Laws of the flag register: each flag after a single-bit operation and after the flag ALU. -/

namespace Sys2Proof.Laws

open Sys2Proof.Machine

/-- The bit number of a flag (10_state.md R25). -/
def flagBit : Flag → Nat
  | .carry => 0
  | .zero => 1
  | .interruptDisable => 2
  | .decimal => 3
  | .brk => 4
  | .unused => 5
  | .overflow => 6
  | .sign => 7

/-- A flag is its bit of P. -/
theorem isSet_eq_getLsbD (f : Flag) (p : Byte) : isSet f p = p.getLsbD (flagBit f) := by
  revert p
  cases f <;> decide

theorem isSet_mask (f g : Flag) : g.mask.getLsbD (flagBit f) = decide (f = g) := by
  cases f <;> cases g <;> decide

theorem isSet_setFlag (f g : Flag) (p : Byte) : isSet f (setFlag g p) = (decide (f = g) || isSet f p) := by
  simp [isSet_eq_getLsbD, setFlag, isSet_mask, Bool.or_comm]

theorem isSet_clearFlag (f g : Flag) (p : Byte) : isSet f (clearFlag g p) = (!decide (f = g) && isSet f p) := by
  have : flagBit f < 8 := by cases f <;> decide
  rw [isSet_eq_getLsbD, isSet_eq_getLsbD, clearFlag, BitVec.getLsbD_and, BitVec.getLsbD_not, isSet_mask]
  simp [this, Bool.and_comm]

/-- `assign` gives its flag the value and leaves every other flag. -/
@[simp] theorem isSet_assignFlag (f g : Flag) (b : Bool) (p : Byte) :
    isSet f (assignFlag g b p) = if f = g then b else isSet f p := by
  cases b
  · rw [assignFlag, if_neg (by simp), isSet_clearFlag]
    by_cases h : f = g <;> simp [h]
  · rw [assignFlag, if_pos rfl, isSet_setFlag]
    by_cases h : f = g <;> simp [h]

/-- Two status bytes with the same eight flags are the same byte. -/
theorem status_ext {p q : Byte} (h : ∀ f, isSet f p = isSet f q) : p = q := by
  simp only [isSet_eq_getLsbD] at h
  apply BitVec.eq_of_getLsbD_eq
  intro i hi
  have : i = 0 ∨ i = 1 ∨ i = 2 ∨ i = 3 ∨ i = 4 ∨ i = 5 ∨ i = 6 ∨ i = 7 := by omega
  rcases this with rfl | rfl | rfl | rfl | rfl | rfl | rfl | rfl
  · exact h .carry
  · exact h .zero
  · exact h .interruptDisable
  · exact h .decimal
  · exact h .brk
  · exact h .unused
  · exact h .overflow
  · exact h .sign

/-- A flag outside the mask of the flag ALU is left as it was. -/
theorem isSet_computeFlags_of_notMem (mask : List Flag) (t : Nat) (a b p : Byte) (f : Flag) (h : f ∉ mask) :
    isSet f (computeFlags mask t a b p) = isSet f p := by
  have keep : ∀ (g : Flag) (c : Bool) (q : Byte),
      isSet f (if g ∈ mask then assignFlag g c q else q) = isSet f q := by
    intro g c q
    by_cases hg : g ∈ mask
    · have : f ≠ g := fun e => h (e ▸ hg)
      simp [hg, this]
    · simp [hg]
  simp only [computeFlags, keep]

/-- What the flag ALU gives the flags of its mask. -/
theorem isSet_computeFlags_carry (mask : List Flag) (t : Nat) (a b p : Byte) (h : Flag.carry ∈ mask) :
    isSet .carry (computeFlags mask t a b p) = t.testBit 8 := by
  simp only [computeFlags, h, if_true]
  split <;> split <;> split <;> simp

theorem isSet_computeFlags_zero (mask : List Flag) (t : Nat) (a b p : Byte) (h : Flag.zero ∈ mask) :
    isSet .zero (computeFlags mask t a b p) = (BitVec.ofNat 8 t == 0#8) := by
  simp only [computeFlags, h, if_true]
  split <;> split <;> simp

theorem isSet_computeFlags_sign (mask : List Flag) (t : Nat) (a b p : Byte) (h : Flag.sign ∈ mask) :
    isSet .sign (computeFlags mask t a b p) = (BitVec.ofNat 8 t).msb := by
  simp only [computeFlags, h, if_true]
  split <;> simp

theorem isSet_computeFlags_overflow (mask : List Flag) (t : Nat) (a b p : Byte) (h : Flag.overflow ∈ mask) :
    isSet .overflow (computeFlags mask t a b p) = overflowOf a b (BitVec.ofNat 8 t) := by
  simp only [computeFlags, h, if_true, isSet_assignFlag]

/-- `SetZN(v)` on every flag. -/
@[simp] theorem isSet_setZN (f : Flag) (v p : Byte) :
    isSet f (setZN v p) = if f = .zero then v == 0#8 else if f = .sign then v.msb else isSet f p := by
  by_cases hz : f = .zero
  · subst hz
    simp [setZN, isSet_computeFlags_zero]
  · by_cases hs : f = .sign
    · subst hs
      simp [setZN, isSet_computeFlags_sign]
    · rw [setZN, isSet_computeFlags_of_notMem _ _ _ _ _ _ (by simp [hz, hs])]
      simp [hz, hs]

/-- The pushed copy of P: Break and Unused 1, the other six flags as in P. -/
@[simp] theorem isSet_pushedStatus (f : Flag) (p : Byte) :
    isSet f (pushedStatus p) = (decide (f = .brk) || decide (f = .unused) || isSet f p) := by
  simp [pushedStatus, isSet_setFlag, Bool.or_assoc]

theorem pushedStatus_eq (p : Byte) : pushedStatus p = p ||| 0x30#8 := by
  revert p
  decide

end Sys2Proof.Laws
end

