-- ==== Sys2Proof/Laws/Memory.lean ====
section
/-! SUPPORT. Laws of the backing array: a read after a write, and that every memory operation keeps the canonical form.
The read laws hold of every list, canonical or not. -/

namespace Sys2Proof.Laws

open Sys2Proof.Machine

theorem readCell_eraseCell (m : Memory) (k j : Nat) :
    (m.eraseCell k).readCell j = if j = k then Memory.unlisted else m.readCell j := by
  induction m with
  | nil => simp [Memory.eraseCell, Memory.readCell]
  | cons c rest ih =>
    simp only [Memory.eraseCell] at ih
    by_cases h : c.1 = k
    · simp only [Memory.eraseCell, List.filter_cons, h, bne_self_eq_false, Bool.false_eq_true, if_false, ih,
        Memory.readCell]
      by_cases hj : j = k
      · simp [hj]
      · simp [hj, Ne.symm hj]
    · have hb : (c.1 != k) = true := by simpa using h
      simp only [Memory.eraseCell, List.filter_cons, hb, if_true, Memory.readCell, ih]
      by_cases hj : c.1 = j
      · have : j ≠ k := fun e => h (hj.trans e)
        simp [hj, this]
      · simp [hj]

theorem readCell_insertCell (m : Memory) (k j : Nat) (v : Byte) (h : ∀ c ∈ m, c.1 ≠ k) :
    (m.insertCell k v).readCell j = if j = k then v else m.readCell j := by
  induction m with
  | nil =>
    by_cases hj : j = k
    · simp [Memory.insertCell, Memory.readCell, hj]
    · simp [Memory.insertCell, Memory.readCell, hj, Ne.symm hj]
  | cons c rest ih =>
    have hc : c.1 ≠ k := h c (List.mem_cons_self ..)
    have ih := ih (fun d hd => h d (List.mem_cons_of_mem _ hd))
    by_cases hlt : k < c.1
    · by_cases hj : j = k
      · simp [Memory.insertCell, hlt, Memory.readCell, hj]
      · simp [Memory.insertCell, hlt, Memory.readCell, hj, Ne.symm hj]
    · by_cases hj : c.1 = j
      · have : j ≠ k := fun e => hc (hj.trans e)
        rw [Memory.insertCell, if_neg hlt]
        simp [Memory.readCell, hj, this]
      · rw [Memory.insertCell, if_neg hlt]
        simp [Memory.readCell, hj, ih]

theorem mem_eraseCell {m : Memory} {k : Nat} {c : Host.Cell} (h : c ∈ m.eraseCell k) : c ∈ m ∧ c.1 ≠ k := by
  simpa [Memory.eraseCell] using h

/-- A read after a write: the written cell gives the byte written, every other cell what it gave before. -/
theorem readCell_writeCell (m : Memory) (k j : Nat) (v : Byte) :
    (m.writeCell k v).readCell j = if j = k then v else m.readCell j := by
  by_cases hv : v = Memory.unlisted
  · simp [Memory.writeCell, hv, readCell_eraseCell]
  · simp only [Memory.writeCell, hv, if_false]
    rw [readCell_insertCell _ _ _ _ (fun c hc => (mem_eraseCell hc).2), readCell_eraseCell]
    by_cases hj : j = k <;> simp [hj]

theorem mem_insertCell {m : Memory} {k : Nat} {v : Byte} {c : Host.Cell} (h : c ∈ m.insertCell k v) :
    c = (k, v) ∨ c ∈ m := by
  induction m with
  | nil => simpa [Memory.insertCell] using h
  | cons d rest ih =>
    by_cases hlt : k < d.1
    · simpa [Memory.insertCell, hlt] using h
    · simp only [Memory.insertCell, hlt, if_false, List.mem_cons] at h ⊢
      rcases h with rfl | h
      · exact .inr (.inl rfl)
      · exact (ih h).imp_right .inr

/-- What a write can list: the cell written, with a byte that is not the unlisted one, or a cell listed before. -/
theorem mem_writeCell {m : Memory} {k : Nat} {v : Byte} {c : Host.Cell} (h : c ∈ m.writeCell k v) :
    (c = (k, v) ∧ v ≠ Memory.unlisted) ∨ (c ∈ m ∧ c.1 ≠ k) := by
  by_cases hv : v = Memory.unlisted
  · simp only [Memory.writeCell, hv, if_true] at h
    exact .inr (mem_eraseCell h)
  · simp only [Memory.writeCell, hv, if_false] at h
    exact (mem_insertCell h).imp (⟨·, hv⟩) mem_eraseCell

theorem rising_insertCell (m : Memory) (k : Nat) (v : Byte) (h : ∀ c ∈ m, c.1 ≠ k)
    (hm : m.Pairwise (fun c d => c.1 < d.1)) : (m.insertCell k v).Pairwise (fun c d => c.1 < d.1) := by
  induction m with
  | nil => simp [Memory.insertCell]
  | cons c rest ih =>
    have hc : c.1 ≠ k := h c (List.mem_cons_self ..)
    obtain ⟨hhead, htail⟩ := List.pairwise_cons.1 hm
    by_cases hlt : k < c.1
    · simp only [Memory.insertCell, hlt, if_true, List.pairwise_cons, List.mem_cons]
      refine ⟨?_, hhead, htail⟩
      rintro d (rfl | hd)
      · exact hlt
      · exact hlt.trans (hhead d hd)
    · simp only [Memory.insertCell, hlt, if_false, List.pairwise_cons]
      refine ⟨fun d hd => ?_, ih (fun d hd => h d (List.mem_cons_of_mem _ hd)) htail⟩
      rcases mem_insertCell hd with rfl | hd
      · show c.1 < k
        omega
      · exact hhead d hd

theorem wf_nil : Memory.wf [] := by simp [Memory.wf]

/-- Writing a cell below 2^16 keeps the canonical form. -/
theorem wf_writeCell (m : Memory) (k : Nat) (v : Byte) (hm : m.wf) (hk : k < 0x10000) : (m.writeCell k v).wf := by
  refine ⟨?_, fun c hc => ?_⟩
  · have he : (m.eraseCell k).Pairwise (fun c d => c.1 < d.1) := hm.1.filter _
    by_cases hv : v = Memory.unlisted
    · simpa [Memory.writeCell, hv] using he
    · simp only [Memory.writeCell, hv, if_false]
      exact rising_insertCell _ _ _ (fun c hc => (mem_eraseCell hc).2) he
  · rcases mem_writeCell hc with ⟨rfl, hv⟩ | ⟨hc, -⟩
    · exact ⟨hk, hv⟩
    · exact hm.2 c hc

/-- The memory port's write keeps the canonical form. -/
theorem wf_memSet (b : Bool) (m : Memory) (addr : Word) (v : Byte) (hm : m.wf) : (memSet b m addr v).wf :=
  wf_writeCell m _ v hm (fold b addr).isLt

theorem memGet_memSet (pm : Bool) (m : Memory) (a b : Word) (v : Byte) :
    memGet pm (memSet pm m a v) b = if fold pm b = fold pm a then v else memGet pm m b := by
  simp [memGet, memSet, readCell_writeCell, BitVec.toNat_inj]

end Sys2Proof.Laws
end

