-- ==== Sys2Proof/Laws/State.lean ====
section
/-! SUPPORT. One lemma a field for every update of a state, so that no proof unfolds a record update. -/

namespace Sys2Proof.Laws

open Sys2Proof.Machine

variable (s : State)

/-! ## `setA` -/

@[simp] theorem setA_a (v : Byte) : (s.setA v).a = v := rfl
@[simp] theorem setA_x (v : Byte) : (s.setA v).x = s.x := rfl
@[simp] theorem setA_y (v : Byte) : (s.setA v).y = s.y := rfl
@[simp] theorem setA_sp (v : Byte) : (s.setA v).sp = s.sp := rfl
@[simp] theorem setA_pc (v : Byte) : (s.setA v).pc = s.pc := rfl
@[simp] theorem setA_p (v : Byte) : (s.setA v).p = s.p := rfl
@[simp] theorem setA_mem (v : Byte) : (s.setA v).mem = s.mem := rfl
@[simp] theorem setA_cfg (v : Byte) : (s.setA v).cfg = s.cfg := rfl
@[simp] theorem setA_get (v : Byte) (addr : Word) : (s.setA v).get addr = s.get addr := rfl
@[simp] theorem setA_get16 (v : Byte) (addr : Word) : (s.setA v).get16 addr = s.get16 addr := rfl
@[simp] theorem setA_flag (v : Byte) (f : Flag) : (s.setA v).flag f = s.flag f := rfl

/-! ## `setX` -/

@[simp] theorem setX_a (v : Byte) : (s.setX v).a = s.a := rfl
@[simp] theorem setX_x (v : Byte) : (s.setX v).x = v := rfl
@[simp] theorem setX_y (v : Byte) : (s.setX v).y = s.y := rfl
@[simp] theorem setX_sp (v : Byte) : (s.setX v).sp = s.sp := rfl
@[simp] theorem setX_pc (v : Byte) : (s.setX v).pc = s.pc := rfl
@[simp] theorem setX_p (v : Byte) : (s.setX v).p = s.p := rfl
@[simp] theorem setX_mem (v : Byte) : (s.setX v).mem = s.mem := rfl
@[simp] theorem setX_cfg (v : Byte) : (s.setX v).cfg = s.cfg := rfl
@[simp] theorem setX_get (v : Byte) (addr : Word) : (s.setX v).get addr = s.get addr := rfl
@[simp] theorem setX_get16 (v : Byte) (addr : Word) : (s.setX v).get16 addr = s.get16 addr := rfl
@[simp] theorem setX_flag (v : Byte) (f : Flag) : (s.setX v).flag f = s.flag f := rfl

/-! ## `setY` -/

@[simp] theorem setY_a (v : Byte) : (s.setY v).a = s.a := rfl
@[simp] theorem setY_x (v : Byte) : (s.setY v).x = s.x := rfl
@[simp] theorem setY_y (v : Byte) : (s.setY v).y = v := rfl
@[simp] theorem setY_sp (v : Byte) : (s.setY v).sp = s.sp := rfl
@[simp] theorem setY_pc (v : Byte) : (s.setY v).pc = s.pc := rfl
@[simp] theorem setY_p (v : Byte) : (s.setY v).p = s.p := rfl
@[simp] theorem setY_mem (v : Byte) : (s.setY v).mem = s.mem := rfl
@[simp] theorem setY_cfg (v : Byte) : (s.setY v).cfg = s.cfg := rfl
@[simp] theorem setY_get (v : Byte) (addr : Word) : (s.setY v).get addr = s.get addr := rfl
@[simp] theorem setY_get16 (v : Byte) (addr : Word) : (s.setY v).get16 addr = s.get16 addr := rfl
@[simp] theorem setY_flag (v : Byte) (f : Flag) : (s.setY v).flag f = s.flag f := rfl

/-! ## `setSP` -/

@[simp] theorem setSP_a (v : Byte) : (s.setSP v).a = s.a := rfl
@[simp] theorem setSP_x (v : Byte) : (s.setSP v).x = s.x := rfl
@[simp] theorem setSP_y (v : Byte) : (s.setSP v).y = s.y := rfl
@[simp] theorem setSP_sp (v : Byte) : (s.setSP v).sp = v := rfl
@[simp] theorem setSP_pc (v : Byte) : (s.setSP v).pc = s.pc := rfl
@[simp] theorem setSP_p (v : Byte) : (s.setSP v).p = s.p := rfl
@[simp] theorem setSP_mem (v : Byte) : (s.setSP v).mem = s.mem := rfl
@[simp] theorem setSP_cfg (v : Byte) : (s.setSP v).cfg = s.cfg := rfl
@[simp] theorem setSP_get (v : Byte) (addr : Word) : (s.setSP v).get addr = s.get addr := rfl
@[simp] theorem setSP_get16 (v : Byte) (addr : Word) : (s.setSP v).get16 addr = s.get16 addr := rfl
@[simp] theorem setSP_flag (v : Byte) (f : Flag) : (s.setSP v).flag f = s.flag f := rfl

/-! ## `setPC` -/

@[simp] theorem setPC_a (v : Word) : (s.setPC v).a = s.a := rfl
@[simp] theorem setPC_x (v : Word) : (s.setPC v).x = s.x := rfl
@[simp] theorem setPC_y (v : Word) : (s.setPC v).y = s.y := rfl
@[simp] theorem setPC_sp (v : Word) : (s.setPC v).sp = s.sp := rfl
@[simp] theorem setPC_pc (v : Word) : (s.setPC v).pc = v := rfl
@[simp] theorem setPC_p (v : Word) : (s.setPC v).p = s.p := rfl
@[simp] theorem setPC_mem (v : Word) : (s.setPC v).mem = s.mem := rfl
@[simp] theorem setPC_cfg (v : Word) : (s.setPC v).cfg = s.cfg := rfl
@[simp] theorem setPC_get (v : Word) (addr : Word) : (s.setPC v).get addr = s.get addr := rfl
@[simp] theorem setPC_get16 (v : Word) (addr : Word) : (s.setPC v).get16 addr = s.get16 addr := rfl
@[simp] theorem setPC_flag (v : Word) (f : Flag) : (s.setPC v).flag f = s.flag f := rfl

/-! ## `setP` -/

@[simp] theorem setP_a (v : Byte) : (s.setP v).a = s.a := rfl
@[simp] theorem setP_x (v : Byte) : (s.setP v).x = s.x := rfl
@[simp] theorem setP_y (v : Byte) : (s.setP v).y = s.y := rfl
@[simp] theorem setP_sp (v : Byte) : (s.setP v).sp = s.sp := rfl
@[simp] theorem setP_pc (v : Byte) : (s.setP v).pc = s.pc := rfl
@[simp] theorem setP_p (v : Byte) : (s.setP v).p = v := rfl
@[simp] theorem setP_mem (v : Byte) : (s.setP v).mem = s.mem := rfl
@[simp] theorem setP_cfg (v : Byte) : (s.setP v).cfg = s.cfg := rfl
@[simp] theorem setP_get (v : Byte) (addr : Word) : (s.setP v).get addr = s.get addr := rfl
@[simp] theorem setP_get16 (v : Byte) (addr : Word) : (s.setP v).get16 addr = s.get16 addr := rfl
@[simp] theorem setP_flag (v : Byte) (f : Flag) : (s.setP v).flag f = isSet f v := rfl

/-! ## `assign` -/

@[simp] theorem assign_a (f : Flag) (b : Bool) : (s.assign f b).a = s.a := rfl
@[simp] theorem assign_x (f : Flag) (b : Bool) : (s.assign f b).x = s.x := rfl
@[simp] theorem assign_y (f : Flag) (b : Bool) : (s.assign f b).y = s.y := rfl
@[simp] theorem assign_sp (f : Flag) (b : Bool) : (s.assign f b).sp = s.sp := rfl
@[simp] theorem assign_pc (f : Flag) (b : Bool) : (s.assign f b).pc = s.pc := rfl
@[simp] theorem assign_p (f : Flag) (b : Bool) : (s.assign f b).p = assignFlag f b s.p := rfl
@[simp] theorem assign_mem (f : Flag) (b : Bool) : (s.assign f b).mem = s.mem := rfl
@[simp] theorem assign_cfg (f : Flag) (b : Bool) : (s.assign f b).cfg = s.cfg := rfl
@[simp] theorem assign_get (f : Flag) (b : Bool) (a : Word) : (s.assign f b).get a = s.get a := rfl
@[simp] theorem assign_get16 (f : Flag) (b : Bool) (a : Word) : (s.assign f b).get16 a = s.get16 a := rfl

/-! ## `writeZN` -/

@[simp] theorem writeZN_a (v : Byte) : (s.writeZN v).a = s.a := rfl
@[simp] theorem writeZN_x (v : Byte) : (s.writeZN v).x = s.x := rfl
@[simp] theorem writeZN_y (v : Byte) : (s.writeZN v).y = s.y := rfl
@[simp] theorem writeZN_sp (v : Byte) : (s.writeZN v).sp = s.sp := rfl
@[simp] theorem writeZN_pc (v : Byte) : (s.writeZN v).pc = s.pc := rfl
@[simp] theorem writeZN_p (v : Byte) : (s.writeZN v).p = setZN v s.p := rfl
@[simp] theorem writeZN_mem (v : Byte) : (s.writeZN v).mem = s.mem := rfl
@[simp] theorem writeZN_cfg (v : Byte) : (s.writeZN v).cfg = s.cfg := rfl
@[simp] theorem writeZN_get (v : Byte) (a : Word) : (s.writeZN v).get a = s.get a := rfl
@[simp] theorem writeZN_get16 (v : Byte) (a : Word) : (s.writeZN v).get16 a = s.get16 a := rfl

/-! ## `advance` -/

@[simp] theorem advance_a (n : Nat) : (s.advance n).a = s.a := rfl
@[simp] theorem advance_x (n : Nat) : (s.advance n).x = s.x := rfl
@[simp] theorem advance_y (n : Nat) : (s.advance n).y = s.y := rfl
@[simp] theorem advance_sp (n : Nat) : (s.advance n).sp = s.sp := rfl
@[simp] theorem advance_pc (n : Nat) : (s.advance n).pc = s.pc + BitVec.ofNat 16 n := rfl
@[simp] theorem advance_p (n : Nat) : (s.advance n).p = s.p := rfl
@[simp] theorem advance_mem (n : Nat) : (s.advance n).mem = s.mem := rfl
@[simp] theorem advance_cfg (n : Nat) : (s.advance n).cfg = s.cfg := rfl
@[simp] theorem advance_get (n : Nat) (a : Word) : (s.advance n).get a = s.get a := rfl
@[simp] theorem advance_get16 (n : Nat) (a : Word) : (s.advance n).get16 a = s.get16 a := rfl

/-! ## `set` -/

@[simp] theorem set_a (addr : Word) (v : Byte) : (s.set addr v).a = s.a := rfl
@[simp] theorem set_x (addr : Word) (v : Byte) : (s.set addr v).x = s.x := rfl
@[simp] theorem set_y (addr : Word) (v : Byte) : (s.set addr v).y = s.y := rfl
@[simp] theorem set_sp (addr : Word) (v : Byte) : (s.set addr v).sp = s.sp := rfl
@[simp] theorem set_pc (addr : Word) (v : Byte) : (s.set addr v).pc = s.pc := rfl
@[simp] theorem set_p (addr : Word) (v : Byte) : (s.set addr v).p = s.p := rfl
@[simp] theorem set_mem (addr : Word) (v : Byte) : (s.set addr v).mem = memSet s.cfg.prgMirror s.mem addr v := rfl
@[simp] theorem set_cfg (addr : Word) (v : Byte) : (s.set addr v).cfg = s.cfg := rfl

/-! ## `popped` -/

@[simp] theorem popped_a : (s.popped).a = s.a := rfl
@[simp] theorem popped_x : (s.popped).x = s.x := rfl
@[simp] theorem popped_y : (s.popped).y = s.y := rfl
@[simp] theorem popped_sp : (s.popped).sp = s.sp + 1#8 := rfl
@[simp] theorem popped_pc : (s.popped).pc = s.pc := rfl
@[simp] theorem popped_p : (s.popped).p = s.p := rfl
@[simp] theorem popped_mem : (s.popped).mem = s.mem := rfl
@[simp] theorem popped_cfg : (s.popped).cfg = s.cfg := rfl
@[simp] theorem popped_get (a : Word) : (s.popped).get a = s.get a := rfl
@[simp] theorem popped_get16 (a : Word) : (s.popped).get16 a = s.get16 a := rfl

/-! ## `popped16` -/

@[simp] theorem popped16_a : (s.popped16).a = s.a := rfl
@[simp] theorem popped16_x : (s.popped16).x = s.x := rfl
@[simp] theorem popped16_y : (s.popped16).y = s.y := rfl
@[simp] theorem popped16_sp : (s.popped16).sp = s.sp + 1#8 + 1#8 := rfl
@[simp] theorem popped16_pc : (s.popped16).pc = s.pc := rfl
@[simp] theorem popped16_p : (s.popped16).p = s.p := rfl
@[simp] theorem popped16_mem : (s.popped16).mem = s.mem := rfl
@[simp] theorem popped16_cfg : (s.popped16).cfg = s.cfg := rfl
@[simp] theorem popped16_get (a : Word) : (s.popped16).get a = s.get a := rfl
@[simp] theorem popped16_get16 (a : Word) : (s.popped16).get16 a = s.get16 a := rfl

end Sys2Proof.Laws
end

