-- ==== Sys2Proof/Laws/Ops.lean ====
section
/-! SUPPORT. What each shared operation over registers and memory does: the memory port, the stack primitives, trap
entry and return, reset. -/

namespace Sys2Proof.Laws

open Sys2Proof.Machine

/-! ## The memory port -/

/-- A read after a write through the port (20_memory.md R52, R53). -/
theorem get_set (s : State) (a b : Word) (v : Byte) :
    (s.set a v).get b = if fold s.cfg.prgMirror b = fold s.cfg.prgMirror a then v else s.get b :=
  memGet_memSet _ _ _ _ _

/-- `set` keeps the canonical form of the backing array. -/
theorem wf_set (s : State) (a : Word) (v : Byte) (h : s.mem.wf) : (s.set a v).mem.wf := wf_memSet _ _ _ _ h

/-- A 16-bit read is two byte reads, low byte at the lower address (R54). -/
theorem get16_eq (s : State) (a : Word) : s.get16 a = pair (s.get (a + 1#16)) (s.get a) := rfl

/-! ## The stack page -/

theorem toNat_stackAddr (sp : Byte) : (stackAddr sp).toNat = 0x100 + sp.toNat := by
  have := sp.isLt
  simp only [stackAddr, Config.stackBase, BitVec.toNat_add, toNat_zext16, BitVec.toNat_ofNat]
  omega

/-- "`fold` leaves it unchanged, so the stack always lives in M[0x0100 .. 0x01FF]" (R69). -/
@[simp] theorem fold_stackAddr (b : Bool) (sp : Byte) : fold b (stackAddr sp) = stackAddr sp := by
  have h := toNat_stackAddr sp
  have := sp.isLt
  apply BitVec.eq_of_toNat_eq
  rw [fold, if_pos (by omega), BitVec.toNat_and, h]
  show (0x100 + sp.toNat) &&& (2 ^ 11 - 1) = _
  rw [Nat.and_two_pow_sub_one_eq_mod]
  omega

theorem stackAddr_inj {a b : Byte} : stackAddr a = stackAddr b ↔ a = b := by
  refine ⟨fun h => BitVec.eq_of_toNat_eq ?_, fun h => h ▸ rfl⟩
  have := congrArg BitVec.toNat h
  simp only [toNat_stackAddr] at this
  omega

/-! ## Push and pull -/

@[simp] theorem push8_a (s : State) (v : Byte) : (s.push8 v).a = s.a := by simp [State.push8]
@[simp] theorem push8_x (s : State) (v : Byte) : (s.push8 v).x = s.x := by simp [State.push8]
@[simp] theorem push8_y (s : State) (v : Byte) : (s.push8 v).y = s.y := by simp [State.push8]
@[simp] theorem push8_sp (s : State) (v : Byte) : (s.push8 v).sp = s.sp - 1#8 := by simp [State.push8]
@[simp] theorem push8_pc (s : State) (v : Byte) : (s.push8 v).pc = s.pc := by simp [State.push8]
@[simp] theorem push8_p (s : State) (v : Byte) : (s.push8 v).p = s.p := by simp [State.push8]
@[simp] theorem push8_cfg (s : State) (v : Byte) : (s.push8 v).cfg = s.cfg := by simp [State.push8]

/-- The byte pushed stands at `0x0100 + SP`; every other cell is as before (R69). -/
theorem get_push8 (s : State) (v : Byte) (a : Word) :
    (s.push8 v).get a = if fold s.cfg.prgMirror a = stackAddr s.sp then v else s.get a := by
  simp [State.push8, get_set]

@[simp] theorem push16_a (s : State) (w : Word) : (s.push16 w).a = s.a := by simp [State.push16]
@[simp] theorem push16_x (s : State) (w : Word) : (s.push16 w).x = s.x := by simp [State.push16]
@[simp] theorem push16_y (s : State) (w : Word) : (s.push16 w).y = s.y := by simp [State.push16]
@[simp] theorem push16_sp (s : State) (w : Word) : (s.push16 w).sp = s.sp - 1#8 - 1#8 := by simp [State.push16]
@[simp] theorem push16_pc (s : State) (w : Word) : (s.push16 w).pc = s.pc := by simp [State.push16]
@[simp] theorem push16_p (s : State) (w : Word) : (s.push16 w).p = s.p := by simp [State.push16]
@[simp] theorem push16_cfg (s : State) (w : Word) : (s.push16 w).cfg = s.cfg := by simp [State.push16]

/-- The two bytes pushed: high byte at the higher stack address, low byte under it (R70). -/
theorem get_push16 (s : State) (w : Word) (a : Word) :
    (s.push16 w).get a =
      if fold s.cfg.prgMirror a = stackAddr (s.sp - 1#8) then lo8 w
      else if fold s.cfg.prgMirror a = stackAddr s.sp then hi8 w else s.get a := by
  simp [State.push16, get_push8]

theorem wf_push8 (s : State) (v : Byte) (h : s.mem.wf) : (s.push8 v).mem.wf := wf_set s _ v h

/-! ## Trap entry and return -/

@[simp] theorem trapSaved_a (s : State) : s.trapSaved.a = s.a := by simp [State.trapSaved]
@[simp] theorem trapSaved_x (s : State) : s.trapSaved.x = s.x := by simp [State.trapSaved]
@[simp] theorem trapSaved_y (s : State) : s.trapSaved.y = s.y := by simp [State.trapSaved]
@[simp] theorem trapSaved_sp (s : State) : s.trapSaved.sp = s.sp - 1#8 - 1#8 - 1#8 := by simp [State.trapSaved]
@[simp] theorem trapSaved_cfg (s : State) : s.trapSaved.cfg = s.cfg := by simp [State.trapSaved]
@[simp] theorem trapSaved_p (s : State) :
    s.trapSaved.p = assignFlag .interruptDisable true (assignFlag .brk true s.p) := by simp [State.trapSaved]

/-- The three bytes a trap entry pushes: PC high at the highest address, PC low, then the flags. -/
theorem get_trapSaved (s : State) (a : Word) :
    s.trapSaved.get a =
      if fold s.cfg.prgMirror a = stackAddr (s.sp - 1#8 - 1#8) then pushedStatus s.p
      else if fold s.cfg.prgMirror a = stackAddr (s.sp - 1#8) then lo8 s.pc
      else if fold s.cfg.prgMirror a = stackAddr s.sp then hi8 s.pc else s.get a := by
  simp only [State.trapSaved, assign_get, get_push8, get_push16, push16_cfg, push16_sp]

@[simp] theorem trapEntry_a (s : State) : s.trapEntry.a = s.a := by simp [State.trapEntry]
@[simp] theorem trapEntry_x (s : State) : s.trapEntry.x = s.x := by simp [State.trapEntry]
@[simp] theorem trapEntry_y (s : State) : s.trapEntry.y = s.y := by simp [State.trapEntry]
@[simp] theorem trapEntry_sp (s : State) : s.trapEntry.sp = s.sp - 1#8 - 1#8 - 1#8 := by simp [State.trapEntry]
@[simp] theorem trapEntry_cfg (s : State) : s.trapEntry.cfg = s.cfg := by simp [State.trapEntry]
@[simp] theorem trapEntry_p (s : State) : s.trapEntry.p = s.trapSaved.p := by simp [State.trapEntry]
@[simp] theorem trapEntry_get (s : State) (a : Word) : s.trapEntry.get a = s.trapSaved.get a := by
  simp [State.trapEntry]

/-- PC after a trap entry: the word at the BRK vector, read after the pushes. -/
@[simp] theorem trapEntry_pc (s : State) : s.trapEntry.pc = s.trapSaved.get16 Config.brkVector := by
  simp [State.trapEntry]

@[simp] theorem trapReturn_a (s : State) : s.trapReturn.a = s.a := by simp [State.trapReturn]
@[simp] theorem trapReturn_x (s : State) : s.trapReturn.x = s.x := by simp [State.trapReturn]
@[simp] theorem trapReturn_y (s : State) : s.trapReturn.y = s.y := by simp [State.trapReturn]
@[simp] theorem trapReturn_sp (s : State) : s.trapReturn.sp = s.sp + 1#8 + 1#8 + 1#8 := by simp [State.trapReturn]
@[simp] theorem trapReturn_p (s : State) : s.trapReturn.p = s.top8 := by simp [State.trapReturn]
@[simp] theorem trapReturn_pc (s : State) : s.trapReturn.pc = s.popped.top16 := by simp [State.trapReturn]
@[simp] theorem trapReturn_mem (s : State) : s.trapReturn.mem = s.mem := by simp [State.trapReturn]
@[simp] theorem trapReturn_cfg (s : State) : s.trapReturn.cfg = s.cfg := by simp [State.trapReturn]

/-! ## Reset -/

/-- `State.reset` is the reset operation on an instance whose memory lists nothing, with A, X and Y zero. -/
theorem reset_eq_applyReset (s : State) (hm : s.mem = []) (hc : s.cfg = Config.standard) :
    State.reset = s.applyReset 0#8 0#8 0#8 := by
  cases s
  subst hm hc
  rfl

end Sys2Proof.Laws
end

