-- ==== Sys2Proof/Laws/Families.lean ====
section
/-! SUPPORT. What each family's shared operation does to every field of the state. -/

namespace Sys2Proof.Laws

open Sys2Proof.Machine

/-! ## Operand access -/

/-- `WriteOp` in Accumulator mode and in a memory mode (30_encoding.md R105). -/
theorem writeOp_none (s : State) (v : Byte) : s.writeOp none v = s.setA v := rfl
theorem writeOp_some (s : State) (ea : Word) (v : Byte) : s.writeOp (some ea) v = s.set ea v := rfl

/-- Outside the Immediate mode the operand is the byte at the effective address (00_scope.md R11). -/
theorem operand_eq_get (s : State) (m : EaMode) (h : m.mode ≠ .immediate) : s.operand m = s.get (s.ea m) := by
  cases m with
  | immediate d => exact absurd rfl h
  | _ => rfl

/-! ## Arithmetic and compares -/

/-- The sum of ADC and SBC: A, the four flags, and nothing else. -/
theorem addToA_eq (b : Byte) (s : State) :
    addToA b s = { s with
      a := BitVec.ofNat 8 (s.a.toNat + b.toNat + s.carryIn)
      p := computeFlags [.carry, .zero, .overflow, .sign] (s.a.toNat + b.toNat + s.carryIn) s.a b s.p } := rfl

/-- A compare: the three flags, and nothing else. -/
theorem compareWith_eq (g m : Byte) (s : State) :
    compareWith g m s = { s with
      p := computeFlags [.carry, .zero, .sign] (g.toNat + (m ^^^ 0xFF#8).toNat + 1) g (m ^^^ 0xFF#8) s.p } := rfl

/-! ## Logical, shifts, increments -/

theorem logicalA_eq (v : Byte) (s : State) : logicalA v s = { s with a := v, p := setZN v s.p } := rfl

theorem shiftOp_accumulator (f : Byte → Byte) (out : Byte → Bool) (s : State) :
    shiftOp none f out s =
      { s with a := f s.a, p := setZN (f s.a) (assignFlag .carry (out s.a) s.p) } := rfl

theorem shiftOp_memory (ea : Word) (f : Byte → Byte) (out : Byte → Bool) (s : State) :
    shiftOp (some ea) f out s =
      { s.set ea (f (s.get ea)) with
        p := setZN (f (s.get ea)) (assignFlag .carry (out (s.get ea)) s.p) } := rfl

theorem modifyAt_eq (ea : Word) (f : Byte → Byte) (s : State) :
    modifyAt ea f s = { s.set ea (f (s.get ea)) with p := setZN (f (s.get ea)) s.p } := rfl

/-! ## Branches -/

/-- A branch writes PC, when it is taken, and nothing else. -/
theorem branchOn_eq (f : Flag) (b : Bool) (off : Int) (s : State) :
    branchOn f b off s = { s with pc := if s.flag f = b then s.pc + BitVec.ofInt 16 off else s.pc } := by
  rw [branchOn]
  split <;> rfl

end Sys2Proof.Laws
end

