-- ==== Sys2Proof/Laws/PerInstr.lean ====
section
/-! SUPPORT. The statement made of every instruction as syntax, one lemma a constructor. -/

namespace Sys2Proof.Laws.TableRow

/-- The opcode table has a row for the instruction's opcode byte; the row has its mnemonic and mode; and from the
operand bytes of a well-formed instruction, whatever bytes follow, the row makes the instruction again. -/
def Statement (i : Instr) : Prop :=
  ∃ r, lookupOpcode i.opcode = some r ∧ r.mnemonic = i.mnemonic ∧ r.mode = i.mode ∧
    (i.wf = true → ∀ rest : List Byte,
      r.build ((i.operand.bytes ++ rest).getD 0 0#8) ((i.operand.bytes ++ rest).getD 1 0#8) = i)

theorem adcImm (d : Byte) : Statement (.adcImm d) := ⟨_, rfl, rfl, rfl, fun _ _ => rfl⟩
theorem adcZp (d : Byte) : Statement (.adcZp d) := ⟨_, rfl, rfl, rfl, fun _ _ => rfl⟩
theorem adcZpx (d : Byte) : Statement (.adcZpx d) := ⟨_, rfl, rfl, rfl, fun _ _ => rfl⟩
theorem adcAbs (w : Word) : Statement (.adcAbs w) := ⟨_, rfl, rfl, rfl, fun _ _ => wordOperand_bytes _ w⟩
theorem adcAbx (w : Word) : Statement (.adcAbx w) := ⟨_, rfl, rfl, rfl, fun _ _ => wordOperand_bytes _ w⟩
theorem adcAby (w : Word) : Statement (.adcAby w) := ⟨_, rfl, rfl, rfl, fun _ _ => wordOperand_bytes _ w⟩
theorem adcIzx (d : Byte) : Statement (.adcIzx d) := ⟨_, rfl, rfl, rfl, fun _ _ => rfl⟩
theorem adcIzy (d : Byte) : Statement (.adcIzy d) := ⟨_, rfl, rfl, rfl, fun _ _ => rfl⟩
theorem sbcImm (d : Byte) : Statement (.sbcImm d) := ⟨_, rfl, rfl, rfl, fun _ _ => rfl⟩
theorem sbcZp (d : Byte) : Statement (.sbcZp d) := ⟨_, rfl, rfl, rfl, fun _ _ => rfl⟩
theorem sbcZpx (d : Byte) : Statement (.sbcZpx d) := ⟨_, rfl, rfl, rfl, fun _ _ => rfl⟩
theorem sbcAbs (w : Word) : Statement (.sbcAbs w) := ⟨_, rfl, rfl, rfl, fun _ _ => wordOperand_bytes _ w⟩
theorem sbcAbx (w : Word) : Statement (.sbcAbx w) := ⟨_, rfl, rfl, rfl, fun _ _ => wordOperand_bytes _ w⟩
theorem sbcAby (w : Word) : Statement (.sbcAby w) := ⟨_, rfl, rfl, rfl, fun _ _ => wordOperand_bytes _ w⟩
theorem sbcIzx (d : Byte) : Statement (.sbcIzx d) := ⟨_, rfl, rfl, rfl, fun _ _ => rfl⟩
theorem sbcIzy (d : Byte) : Statement (.sbcIzy d) := ⟨_, rfl, rfl, rfl, fun _ _ => rfl⟩
theorem andImm (d : Byte) : Statement (.andImm d) := ⟨_, rfl, rfl, rfl, fun _ _ => rfl⟩
theorem andZp (d : Byte) : Statement (.andZp d) := ⟨_, rfl, rfl, rfl, fun _ _ => rfl⟩
theorem andZpx (d : Byte) : Statement (.andZpx d) := ⟨_, rfl, rfl, rfl, fun _ _ => rfl⟩
theorem andAbs (w : Word) : Statement (.andAbs w) := ⟨_, rfl, rfl, rfl, fun _ _ => wordOperand_bytes _ w⟩
theorem andAbx (w : Word) : Statement (.andAbx w) := ⟨_, rfl, rfl, rfl, fun _ _ => wordOperand_bytes _ w⟩
theorem andAby (w : Word) : Statement (.andAby w) := ⟨_, rfl, rfl, rfl, fun _ _ => wordOperand_bytes _ w⟩
theorem andIzx (d : Byte) : Statement (.andIzx d) := ⟨_, rfl, rfl, rfl, fun _ _ => rfl⟩
theorem andIzy (d : Byte) : Statement (.andIzy d) := ⟨_, rfl, rfl, rfl, fun _ _ => rfl⟩
theorem oraImm (d : Byte) : Statement (.oraImm d) := ⟨_, rfl, rfl, rfl, fun _ _ => rfl⟩
theorem oraZp (d : Byte) : Statement (.oraZp d) := ⟨_, rfl, rfl, rfl, fun _ _ => rfl⟩
theorem oraZpx (d : Byte) : Statement (.oraZpx d) := ⟨_, rfl, rfl, rfl, fun _ _ => rfl⟩
theorem oraAbs (w : Word) : Statement (.oraAbs w) := ⟨_, rfl, rfl, rfl, fun _ _ => wordOperand_bytes _ w⟩
theorem oraAbx (w : Word) : Statement (.oraAbx w) := ⟨_, rfl, rfl, rfl, fun _ _ => wordOperand_bytes _ w⟩
theorem oraAby (w : Word) : Statement (.oraAby w) := ⟨_, rfl, rfl, rfl, fun _ _ => wordOperand_bytes _ w⟩
theorem oraIzx (d : Byte) : Statement (.oraIzx d) := ⟨_, rfl, rfl, rfl, fun _ _ => rfl⟩
theorem oraIzy (d : Byte) : Statement (.oraIzy d) := ⟨_, rfl, rfl, rfl, fun _ _ => rfl⟩
theorem eorImm (d : Byte) : Statement (.eorImm d) := ⟨_, rfl, rfl, rfl, fun _ _ => rfl⟩
theorem eorZp (d : Byte) : Statement (.eorZp d) := ⟨_, rfl, rfl, rfl, fun _ _ => rfl⟩
theorem eorZpx (d : Byte) : Statement (.eorZpx d) := ⟨_, rfl, rfl, rfl, fun _ _ => rfl⟩
theorem eorAbs (w : Word) : Statement (.eorAbs w) := ⟨_, rfl, rfl, rfl, fun _ _ => wordOperand_bytes _ w⟩
theorem eorAbx (w : Word) : Statement (.eorAbx w) := ⟨_, rfl, rfl, rfl, fun _ _ => wordOperand_bytes _ w⟩
theorem eorAby (w : Word) : Statement (.eorAby w) := ⟨_, rfl, rfl, rfl, fun _ _ => wordOperand_bytes _ w⟩
theorem eorIzx (d : Byte) : Statement (.eorIzx d) := ⟨_, rfl, rfl, rfl, fun _ _ => rfl⟩
theorem eorIzy (d : Byte) : Statement (.eorIzy d) := ⟨_, rfl, rfl, rfl, fun _ _ => rfl⟩
theorem aslAcc : Statement .aslAcc := ⟨_, rfl, rfl, rfl, fun _ _ => rfl⟩
theorem aslZp (d : Byte) : Statement (.aslZp d) := ⟨_, rfl, rfl, rfl, fun _ _ => rfl⟩
theorem aslZpx (d : Byte) : Statement (.aslZpx d) := ⟨_, rfl, rfl, rfl, fun _ _ => rfl⟩
theorem aslAbs (w : Word) : Statement (.aslAbs w) := ⟨_, rfl, rfl, rfl, fun _ _ => wordOperand_bytes _ w⟩
theorem aslAbx (w : Word) : Statement (.aslAbx w) := ⟨_, rfl, rfl, rfl, fun _ _ => wordOperand_bytes _ w⟩
theorem lsrAcc : Statement .lsrAcc := ⟨_, rfl, rfl, rfl, fun _ _ => rfl⟩
theorem lsrZp (d : Byte) : Statement (.lsrZp d) := ⟨_, rfl, rfl, rfl, fun _ _ => rfl⟩
theorem lsrZpx (d : Byte) : Statement (.lsrZpx d) := ⟨_, rfl, rfl, rfl, fun _ _ => rfl⟩
theorem lsrAbs (w : Word) : Statement (.lsrAbs w) := ⟨_, rfl, rfl, rfl, fun _ _ => wordOperand_bytes _ w⟩
theorem lsrAbx (w : Word) : Statement (.lsrAbx w) := ⟨_, rfl, rfl, rfl, fun _ _ => wordOperand_bytes _ w⟩
theorem rolAcc : Statement .rolAcc := ⟨_, rfl, rfl, rfl, fun _ _ => rfl⟩
theorem rolZp (d : Byte) : Statement (.rolZp d) := ⟨_, rfl, rfl, rfl, fun _ _ => rfl⟩
theorem rolZpx (d : Byte) : Statement (.rolZpx d) := ⟨_, rfl, rfl, rfl, fun _ _ => rfl⟩
theorem rolAbs (w : Word) : Statement (.rolAbs w) := ⟨_, rfl, rfl, rfl, fun _ _ => wordOperand_bytes _ w⟩
theorem rolAbx (w : Word) : Statement (.rolAbx w) := ⟨_, rfl, rfl, rfl, fun _ _ => wordOperand_bytes _ w⟩
theorem rorAcc : Statement .rorAcc := ⟨_, rfl, rfl, rfl, fun _ _ => rfl⟩
theorem rorZp (d : Byte) : Statement (.rorZp d) := ⟨_, rfl, rfl, rfl, fun _ _ => rfl⟩
theorem rorZpx (d : Byte) : Statement (.rorZpx d) := ⟨_, rfl, rfl, rfl, fun _ _ => rfl⟩
theorem rorAbs (w : Word) : Statement (.rorAbs w) := ⟨_, rfl, rfl, rfl, fun _ _ => wordOperand_bytes _ w⟩
theorem rorAbx (w : Word) : Statement (.rorAbx w) := ⟨_, rfl, rfl, rfl, fun _ _ => wordOperand_bytes _ w⟩
theorem cmpImm (d : Byte) : Statement (.cmpImm d) := ⟨_, rfl, rfl, rfl, fun _ _ => rfl⟩
theorem cmpZp (d : Byte) : Statement (.cmpZp d) := ⟨_, rfl, rfl, rfl, fun _ _ => rfl⟩
theorem cmpZpx (d : Byte) : Statement (.cmpZpx d) := ⟨_, rfl, rfl, rfl, fun _ _ => rfl⟩
theorem cmpAbs (w : Word) : Statement (.cmpAbs w) := ⟨_, rfl, rfl, rfl, fun _ _ => wordOperand_bytes _ w⟩
theorem cmpAbx (w : Word) : Statement (.cmpAbx w) := ⟨_, rfl, rfl, rfl, fun _ _ => wordOperand_bytes _ w⟩
theorem cmpAby (w : Word) : Statement (.cmpAby w) := ⟨_, rfl, rfl, rfl, fun _ _ => wordOperand_bytes _ w⟩
theorem cmpIzx (d : Byte) : Statement (.cmpIzx d) := ⟨_, rfl, rfl, rfl, fun _ _ => rfl⟩
theorem cmpIzy (d : Byte) : Statement (.cmpIzy d) := ⟨_, rfl, rfl, rfl, fun _ _ => rfl⟩
theorem cpxImm (d : Byte) : Statement (.cpxImm d) := ⟨_, rfl, rfl, rfl, fun _ _ => rfl⟩
theorem cpxZp (d : Byte) : Statement (.cpxZp d) := ⟨_, rfl, rfl, rfl, fun _ _ => rfl⟩
theorem cpxAbs (w : Word) : Statement (.cpxAbs w) := ⟨_, rfl, rfl, rfl, fun _ _ => wordOperand_bytes _ w⟩
theorem cpyImm (d : Byte) : Statement (.cpyImm d) := ⟨_, rfl, rfl, rfl, fun _ _ => rfl⟩
theorem cpyZp (d : Byte) : Statement (.cpyZp d) := ⟨_, rfl, rfl, rfl, fun _ _ => rfl⟩
theorem cpyAbs (w : Word) : Statement (.cpyAbs w) := ⟨_, rfl, rfl, rfl, fun _ _ => wordOperand_bytes _ w⟩
theorem bpl (off : Int) : Statement (.bpl off) := ⟨_, rfl, rfl, rfl, fun h _ => offsetOperand_byte _ off 0#8 h⟩
theorem bmi (off : Int) : Statement (.bmi off) := ⟨_, rfl, rfl, rfl, fun h _ => offsetOperand_byte _ off 0#8 h⟩
theorem bvc (off : Int) : Statement (.bvc off) := ⟨_, rfl, rfl, rfl, fun h _ => offsetOperand_byte _ off 0#8 h⟩
theorem bvs (off : Int) : Statement (.bvs off) := ⟨_, rfl, rfl, rfl, fun h _ => offsetOperand_byte _ off 0#8 h⟩
theorem bcc (off : Int) : Statement (.bcc off) := ⟨_, rfl, rfl, rfl, fun h _ => offsetOperand_byte _ off 0#8 h⟩
theorem bcs (off : Int) : Statement (.bcs off) := ⟨_, rfl, rfl, rfl, fun h _ => offsetOperand_byte _ off 0#8 h⟩
theorem bne (off : Int) : Statement (.bne off) := ⟨_, rfl, rfl, rfl, fun h _ => offsetOperand_byte _ off 0#8 h⟩
theorem beq (off : Int) : Statement (.beq off) := ⟨_, rfl, rfl, rfl, fun h _ => offsetOperand_byte _ off 0#8 h⟩
theorem incZp (d : Byte) : Statement (.incZp d) := ⟨_, rfl, rfl, rfl, fun _ _ => rfl⟩
theorem incZpx (d : Byte) : Statement (.incZpx d) := ⟨_, rfl, rfl, rfl, fun _ _ => rfl⟩
theorem incAbs (w : Word) : Statement (.incAbs w) := ⟨_, rfl, rfl, rfl, fun _ _ => wordOperand_bytes _ w⟩
theorem incAbx (w : Word) : Statement (.incAbx w) := ⟨_, rfl, rfl, rfl, fun _ _ => wordOperand_bytes _ w⟩
theorem decZp (d : Byte) : Statement (.decZp d) := ⟨_, rfl, rfl, rfl, fun _ _ => rfl⟩
theorem decZpx (d : Byte) : Statement (.decZpx d) := ⟨_, rfl, rfl, rfl, fun _ _ => rfl⟩
theorem decAbs (w : Word) : Statement (.decAbs w) := ⟨_, rfl, rfl, rfl, fun _ _ => wordOperand_bytes _ w⟩
theorem decAbx (w : Word) : Statement (.decAbx w) := ⟨_, rfl, rfl, rfl, fun _ _ => wordOperand_bytes _ w⟩
theorem inx : Statement .inx := ⟨_, rfl, rfl, rfl, fun _ _ => rfl⟩
theorem iny : Statement .iny := ⟨_, rfl, rfl, rfl, fun _ _ => rfl⟩
theorem dex : Statement .dex := ⟨_, rfl, rfl, rfl, fun _ _ => rfl⟩
theorem dey : Statement .dey := ⟨_, rfl, rfl, rfl, fun _ _ => rfl⟩
theorem ldaImm (d : Byte) : Statement (.ldaImm d) := ⟨_, rfl, rfl, rfl, fun _ _ => rfl⟩
theorem ldaZp (d : Byte) : Statement (.ldaZp d) := ⟨_, rfl, rfl, rfl, fun _ _ => rfl⟩
theorem ldaZpx (d : Byte) : Statement (.ldaZpx d) := ⟨_, rfl, rfl, rfl, fun _ _ => rfl⟩
theorem ldaAbs (w : Word) : Statement (.ldaAbs w) := ⟨_, rfl, rfl, rfl, fun _ _ => wordOperand_bytes _ w⟩
theorem ldaAbx (w : Word) : Statement (.ldaAbx w) := ⟨_, rfl, rfl, rfl, fun _ _ => wordOperand_bytes _ w⟩
theorem ldaAby (w : Word) : Statement (.ldaAby w) := ⟨_, rfl, rfl, rfl, fun _ _ => wordOperand_bytes _ w⟩
theorem ldaIzx (d : Byte) : Statement (.ldaIzx d) := ⟨_, rfl, rfl, rfl, fun _ _ => rfl⟩
theorem ldaIzy (d : Byte) : Statement (.ldaIzy d) := ⟨_, rfl, rfl, rfl, fun _ _ => rfl⟩
theorem ldxImm (d : Byte) : Statement (.ldxImm d) := ⟨_, rfl, rfl, rfl, fun _ _ => rfl⟩
theorem ldxZp (d : Byte) : Statement (.ldxZp d) := ⟨_, rfl, rfl, rfl, fun _ _ => rfl⟩
theorem ldxZpy (d : Byte) : Statement (.ldxZpy d) := ⟨_, rfl, rfl, rfl, fun _ _ => rfl⟩
theorem ldxAbs (w : Word) : Statement (.ldxAbs w) := ⟨_, rfl, rfl, rfl, fun _ _ => wordOperand_bytes _ w⟩
theorem ldxAby (w : Word) : Statement (.ldxAby w) := ⟨_, rfl, rfl, rfl, fun _ _ => wordOperand_bytes _ w⟩
theorem ldyImm (d : Byte) : Statement (.ldyImm d) := ⟨_, rfl, rfl, rfl, fun _ _ => rfl⟩
theorem ldyZp (d : Byte) : Statement (.ldyZp d) := ⟨_, rfl, rfl, rfl, fun _ _ => rfl⟩
theorem ldyZpx (d : Byte) : Statement (.ldyZpx d) := ⟨_, rfl, rfl, rfl, fun _ _ => rfl⟩
theorem ldyAbs (w : Word) : Statement (.ldyAbs w) := ⟨_, rfl, rfl, rfl, fun _ _ => wordOperand_bytes _ w⟩
theorem ldyAbx (w : Word) : Statement (.ldyAbx w) := ⟨_, rfl, rfl, rfl, fun _ _ => wordOperand_bytes _ w⟩
theorem staZp (d : Byte) : Statement (.staZp d) := ⟨_, rfl, rfl, rfl, fun _ _ => rfl⟩
theorem staZpx (d : Byte) : Statement (.staZpx d) := ⟨_, rfl, rfl, rfl, fun _ _ => rfl⟩
theorem staAbs (w : Word) : Statement (.staAbs w) := ⟨_, rfl, rfl, rfl, fun _ _ => wordOperand_bytes _ w⟩
theorem staAbx (w : Word) : Statement (.staAbx w) := ⟨_, rfl, rfl, rfl, fun _ _ => wordOperand_bytes _ w⟩
theorem staAby (w : Word) : Statement (.staAby w) := ⟨_, rfl, rfl, rfl, fun _ _ => wordOperand_bytes _ w⟩
theorem staIzx (d : Byte) : Statement (.staIzx d) := ⟨_, rfl, rfl, rfl, fun _ _ => rfl⟩
theorem staIzy (d : Byte) : Statement (.staIzy d) := ⟨_, rfl, rfl, rfl, fun _ _ => rfl⟩
theorem stxZp (d : Byte) : Statement (.stxZp d) := ⟨_, rfl, rfl, rfl, fun _ _ => rfl⟩
theorem stxZpy (d : Byte) : Statement (.stxZpy d) := ⟨_, rfl, rfl, rfl, fun _ _ => rfl⟩
theorem stxAbs (w : Word) : Statement (.stxAbs w) := ⟨_, rfl, rfl, rfl, fun _ _ => wordOperand_bytes _ w⟩
theorem styZp (d : Byte) : Statement (.styZp d) := ⟨_, rfl, rfl, rfl, fun _ _ => rfl⟩
theorem styZpx (d : Byte) : Statement (.styZpx d) := ⟨_, rfl, rfl, rfl, fun _ _ => rfl⟩
theorem styAbs (w : Word) : Statement (.styAbs w) := ⟨_, rfl, rfl, rfl, fun _ _ => wordOperand_bytes _ w⟩
theorem tax : Statement .tax := ⟨_, rfl, rfl, rfl, fun _ _ => rfl⟩
theorem tay : Statement .tay := ⟨_, rfl, rfl, rfl, fun _ _ => rfl⟩
theorem txa : Statement .txa := ⟨_, rfl, rfl, rfl, fun _ _ => rfl⟩
theorem tya : Statement .tya := ⟨_, rfl, rfl, rfl, fun _ _ => rfl⟩
theorem tsx : Statement .tsx := ⟨_, rfl, rfl, rfl, fun _ _ => rfl⟩
theorem txs : Statement .txs := ⟨_, rfl, rfl, rfl, fun _ _ => rfl⟩
theorem pha : Statement .pha := ⟨_, rfl, rfl, rfl, fun _ _ => rfl⟩
theorem php : Statement .php := ⟨_, rfl, rfl, rfl, fun _ _ => rfl⟩
theorem pla : Statement .pla := ⟨_, rfl, rfl, rfl, fun _ _ => rfl⟩
theorem plp : Statement .plp := ⟨_, rfl, rfl, rfl, fun _ _ => rfl⟩
theorem jmpAbs (w : Word) : Statement (.jmpAbs w) := ⟨_, rfl, rfl, rfl, fun _ _ => wordOperand_bytes _ w⟩
theorem jmpInd (w : Word) : Statement (.jmpInd w) := ⟨_, rfl, rfl, rfl, fun _ _ => wordOperand_bytes _ w⟩
theorem jsr (w : Word) : Statement (.jsr w) := ⟨_, rfl, rfl, rfl, fun _ _ => wordOperand_bytes _ w⟩
theorem rts : Statement .rts := ⟨_, rfl, rfl, rfl, fun _ _ => rfl⟩
theorem rti : Statement .rti := ⟨_, rfl, rfl, rfl, fun _ _ => rfl⟩
theorem brk : Statement .brk := ⟨_, rfl, rfl, rfl, fun _ _ => rfl⟩
theorem nop : Statement .nop := ⟨_, rfl, rfl, rfl, fun _ _ => rfl⟩
theorem clc : Statement .clc := ⟨_, rfl, rfl, rfl, fun _ _ => rfl⟩
theorem sec : Statement .sec := ⟨_, rfl, rfl, rfl, fun _ _ => rfl⟩
theorem cli : Statement .cli := ⟨_, rfl, rfl, rfl, fun _ _ => rfl⟩
theorem sei : Statement .sei := ⟨_, rfl, rfl, rfl, fun _ _ => rfl⟩
theorem clv : Statement .clv := ⟨_, rfl, rfl, rfl, fun _ _ => rfl⟩
theorem cld : Statement .cld := ⟨_, rfl, rfl, rfl, fun _ _ => rfl⟩
theorem sed : Statement .sed := ⟨_, rfl, rfl, rfl, fun _ _ => rfl⟩
theorem bitZp (d : Byte) : Statement (.bitZp d) := ⟨_, rfl, rfl, rfl, fun _ _ => rfl⟩
theorem bitAbs (w : Word) : Statement (.bitAbs w) := ⟨_, rfl, rfl, rfl, fun _ _ => wordOperand_bytes _ w⟩

end Sys2Proof.Laws.TableRow
end

