-- ==== Sys2Proof/Laws/Step.lean ====
section
/-! SUPPORT. What one step can do. -/

namespace Sys2Proof.Laws

open Sys2Proof.Machine

theorem step_of_fetch {s : State} {i : Instr} (h : s.fetch = some i) : step s = exec i (s.advance i.length) := by
  rw [step, h]

theorem step_of_fetch_none {s : State} (h : s.fetch = none) :
    step s = .fault (.unimplementedOpcode s.opcodeByte s.pc) := by
  rw [step, h]
  rfl

/-- A step that answers a next state ran a fetched instruction's effect, with PC advanced past it. -/
theorem step_next {s t : State} (h : step s = .next t) :
    ∃ i, s.fetch = some i ∧ t = effect i.mnemonic i.operand (s.advance i.length) := by
  cases hf : s.fetch with
  | none => simp [step_of_fetch_none hf] at h
  | some i =>
    rw [step_of_fetch hf, exec_eq_effect] at h
    exact ⟨i, rfl, (Host.Outcome.next.inj h).symm⟩

/-- The fetch succeeds exactly when the opcode byte is in the table. -/
theorem fetch_eq_none_iff (s : State) : s.fetch = none ↔ lookupOpcode s.opcodeByte = none := by
  simp [State.fetch, decodeInstr]

end Sys2Proof.Laws
end

