-- ==== Sys2Proof/Tests/Slice0.lean ====
section
/-! SUPPORT. The model's own tests. Expected values are the spec's: the opcode map of 30_encoding.md R100 and the worked
examples (S) and derived vectors (A to K, U) of 95_test_vectors.md. Then, for each obligation with hypotheses, a witness
that meets them. -/

namespace Sys2Proof.Tests

open Sys2Proof.Machine Sys2Proof.Terms

/-! ## Helpers -/

/-- The start state the vectors of 95_test_vectors.md are given against. -/
def base : State :=
  { a := 0x00, x := 0x00, y := 0x00, sp := 0xFD, pc := 0x8000, p := 0x24, mem := [], cfg := Config.standard }

/-- `s` with the bytes `code` at PC and then the cells `cells` written. -/
def given (s : State) (code : List Byte) (cells : List (Word × Byte)) : State :=
  cells.foldl (fun t c => t.set c.1 c.2) (s.loadBytes s.pc code)

/-- What `f` reads of the state after one step; nothing when the step stops. -/
def after {α : Type} (s : State) (f : State → α) : Option α :=
  match step s with
  | .next t => some (f t)
  | .fault _ => none
  | .refused _ => none

/-- What stops the step; nothing when it completes. -/
def stopOf (s : State) : Option Fault :=
  match step s with
  | .next _ => none
  | .fault r => some r
  | .refused _ => none

theorem next_of_after {s : State} (h : after s (fun _ => ()) = some ()) : ∃ t, step s = .next t := by
  unfold after at h
  split at h
  · exact ⟨_, ‹_›⟩
  · cases h
  · cases h

/-- Whether every pair is some bytes and the instruction they decode to, with no byte left over. -/
def decodesTo (rows : List (List Byte × Instr)) : Bool := rows.all (fun r => decide (decode r.1 = .ok (r.2, [])))

/-! ## Well-formedness (R96): an offset outside a signed byte is refused, the ends are not -/

theorem test_wf_refuses_offset_above : (Instr.bne 128).wf = false := by decide
theorem test_wf_refuses_offset_below : (Instr.bne (-129)).wf = false := by decide
theorem test_wf_admits_the_ends : (Instr.bne 127).wf = true ∧ (Instr.bne (-128)).wf = true := by decide

/-! ## Decoding: every assigned byte of R100, with operand bytes of 30_encoding.md section 1 -/

theorem test_decode_arithmetic :
    decodesTo [
    ([0x61, 0x9C], .adcIzx 0x9C), ([0x65, 0x9C], .adcZp 0x9C), ([0x69, 0x9C], .adcImm 0x9C),
    ([0x6D, 0x34, 0x12], .adcAbs 0x1234), ([0x71, 0x9C], .adcIzy 0x9C), ([0x75, 0x9C], .adcZpx 0x9C),
    ([0x79, 0x34, 0x12], .adcAby 0x1234), ([0x7D, 0x34, 0x12], .adcAbx 0x1234), ([0xE1, 0x9C], .sbcIzx 0x9C),
    ([0xE5, 0x9C], .sbcZp 0x9C), ([0xE9, 0x9C], .sbcImm 0x9C), ([0xED, 0x34, 0x12], .sbcAbs 0x1234),
    ([0xF1, 0x9C], .sbcIzy 0x9C), ([0xF5, 0x9C], .sbcZpx 0x9C), ([0xF9, 0x34, 0x12], .sbcAby 0x1234),
    ([0xFD, 0x34, 0x12], .sbcAbx 0x1234)] = true := by decide

theorem test_decode_logical :
    decodesTo [
    ([0x21, 0x9C], .andIzx 0x9C), ([0x25, 0x9C], .andZp 0x9C), ([0x29, 0x9C], .andImm 0x9C),
    ([0x2D, 0x34, 0x12], .andAbs 0x1234), ([0x31, 0x9C], .andIzy 0x9C), ([0x35, 0x9C], .andZpx 0x9C),
    ([0x39, 0x34, 0x12], .andAby 0x1234), ([0x3D, 0x34, 0x12], .andAbx 0x1234), ([0x01, 0x9C], .oraIzx 0x9C),
    ([0x05, 0x9C], .oraZp 0x9C), ([0x09, 0x9C], .oraImm 0x9C), ([0x0D, 0x34, 0x12], .oraAbs 0x1234),
    ([0x11, 0x9C], .oraIzy 0x9C), ([0x15, 0x9C], .oraZpx 0x9C), ([0x19, 0x34, 0x12], .oraAby 0x1234),
    ([0x1D, 0x34, 0x12], .oraAbx 0x1234), ([0x41, 0x9C], .eorIzx 0x9C), ([0x45, 0x9C], .eorZp 0x9C),
    ([0x49, 0x9C], .eorImm 0x9C), ([0x4D, 0x34, 0x12], .eorAbs 0x1234), ([0x51, 0x9C], .eorIzy 0x9C),
    ([0x55, 0x9C], .eorZpx 0x9C), ([0x59, 0x34, 0x12], .eorAby 0x1234), ([0x5D, 0x34, 0x12], .eorAbx 0x1234)] = true := by decide

theorem test_decode_shifts :
    decodesTo [
    ([0x06, 0x9C], .aslZp 0x9C), ([0x0A], .aslAcc), ([0x0E, 0x34, 0x12], .aslAbs 0x1234),
    ([0x16, 0x9C], .aslZpx 0x9C), ([0x1E, 0x34, 0x12], .aslAbx 0x1234), ([0x46, 0x9C], .lsrZp 0x9C),
    ([0x4A], .lsrAcc), ([0x4E, 0x34, 0x12], .lsrAbs 0x1234), ([0x56, 0x9C], .lsrZpx 0x9C),
    ([0x5E, 0x34, 0x12], .lsrAbx 0x1234), ([0x26, 0x9C], .rolZp 0x9C), ([0x2A], .rolAcc),
    ([0x2E, 0x34, 0x12], .rolAbs 0x1234), ([0x36, 0x9C], .rolZpx 0x9C), ([0x3E, 0x34, 0x12], .rolAbx 0x1234),
    ([0x66, 0x9C], .rorZp 0x9C), ([0x6A], .rorAcc), ([0x6E, 0x34, 0x12], .rorAbs 0x1234),
    ([0x76, 0x9C], .rorZpx 0x9C), ([0x7E, 0x34, 0x12], .rorAbx 0x1234)] = true := by decide

theorem test_decode_compares :
    decodesTo [
    ([0xC1, 0x9C], .cmpIzx 0x9C), ([0xC5, 0x9C], .cmpZp 0x9C), ([0xC9, 0x9C], .cmpImm 0x9C),
    ([0xCD, 0x34, 0x12], .cmpAbs 0x1234), ([0xD1, 0x9C], .cmpIzy 0x9C), ([0xD5, 0x9C], .cmpZpx 0x9C),
    ([0xD9, 0x34, 0x12], .cmpAby 0x1234), ([0xDD, 0x34, 0x12], .cmpAbx 0x1234), ([0xE0, 0x9C], .cpxImm 0x9C),
    ([0xE4, 0x9C], .cpxZp 0x9C), ([0xEC, 0x34, 0x12], .cpxAbs 0x1234), ([0xC0, 0x9C], .cpyImm 0x9C),
    ([0xC4, 0x9C], .cpyZp 0x9C), ([0xCC, 0x34, 0x12], .cpyAbs 0x1234)] = true := by decide

theorem test_decode_branches :
    decodesTo [
    ([0x10, 0xFB], .bpl (-5)), ([0x30, 0x80], .bmi (-128)), ([0x50, 0x7F], .bvc 127), ([0x70, 0xFF], .bvs (-1)),
    ([0x90, 0x00], .bcc 0), ([0xB0, 0x05], .bcs 5), ([0xD0, 0xFE], .bne (-2)), ([0xF0, 0x81], .beq (-127))] = true := by decide

theorem test_decode_incdec :
    decodesTo [
    ([0xE6, 0x9C], .incZp 0x9C), ([0xEE, 0x34, 0x12], .incAbs 0x1234), ([0xF6, 0x9C], .incZpx 0x9C),
    ([0xFE, 0x34, 0x12], .incAbx 0x1234), ([0xC6, 0x9C], .decZp 0x9C), ([0xCE, 0x34, 0x12], .decAbs 0x1234),
    ([0xD6, 0x9C], .decZpx 0x9C), ([0xDE, 0x34, 0x12], .decAbx 0x1234), ([0xE8], .inx), ([0xC8], .iny),
    ([0xCA], .dex), ([0x88], .dey)] = true := by decide

theorem test_decode_loads :
    decodesTo [
    ([0xA1, 0x9C], .ldaIzx 0x9C), ([0xA5, 0x9C], .ldaZp 0x9C), ([0xA9, 0x9C], .ldaImm 0x9C),
    ([0xAD, 0x34, 0x12], .ldaAbs 0x1234), ([0xB1, 0x9C], .ldaIzy 0x9C), ([0xB5, 0x9C], .ldaZpx 0x9C),
    ([0xB9, 0x34, 0x12], .ldaAby 0x1234), ([0xBD, 0x34, 0x12], .ldaAbx 0x1234), ([0xA2, 0x9C], .ldxImm 0x9C),
    ([0xA6, 0x9C], .ldxZp 0x9C), ([0xAE, 0x34, 0x12], .ldxAbs 0x1234), ([0xB6, 0x9C], .ldxZpy 0x9C),
    ([0xBE, 0x34, 0x12], .ldxAby 0x1234), ([0xA0, 0x9C], .ldyImm 0x9C), ([0xA4, 0x9C], .ldyZp 0x9C),
    ([0xAC, 0x34, 0x12], .ldyAbs 0x1234), ([0xB4, 0x9C], .ldyZpx 0x9C), ([0xBC, 0x34, 0x12], .ldyAbx 0x1234)] = true := by decide

theorem test_decode_stores :
    decodesTo [
    ([0x81, 0x9C], .staIzx 0x9C), ([0x85, 0x9C], .staZp 0x9C), ([0x8D, 0x34, 0x12], .staAbs 0x1234),
    ([0x91, 0x9C], .staIzy 0x9C), ([0x95, 0x9C], .staZpx 0x9C), ([0x99, 0x34, 0x12], .staAby 0x1234),
    ([0x9D, 0x34, 0x12], .staAbx 0x1234), ([0x86, 0x9C], .stxZp 0x9C), ([0x8E, 0x34, 0x12], .stxAbs 0x1234),
    ([0x96, 0x9C], .stxZpy 0x9C), ([0x84, 0x9C], .styZp 0x9C), ([0x8C, 0x34, 0x12], .styAbs 0x1234),
    ([0x94, 0x9C], .styZpx 0x9C)] = true := by decide

theorem test_decode_transfers_stack :
    decodesTo [
    ([0xAA], .tax), ([0xA8], .tay), ([0x8A], .txa), ([0x98], .tya), ([0xBA], .tsx), ([0x9A], .txs),
    ([0x48], .pha), ([0x08], .php), ([0x68], .pla), ([0x28], .plp)] = true := by decide

theorem test_decode_control :
    decodesTo [
    ([0x4C, 0x34, 0x12], .jmpAbs 0x1234), ([0x6C, 0x34, 0x12], .jmpInd 0x1234),
    ([0x20, 0x34, 0x12], .jsr 0x1234), ([0x60], .rts), ([0x40], .rti), ([0x00], .brk), ([0xEA], .nop)] = true := by decide

theorem test_decode_flagops :
    decodesTo [
    ([0x18], .clc), ([0x38], .sec), ([0x58], .cli), ([0x78], .sei), ([0xB8], .clv), ([0xD8], .cld),
    ([0xF8], .sed), ([0x24, 0x9C], .bitZp 0x9C), ([0x2C, 0x34, 0x12], .bitAbs 0x1234)] = true := by decide

theorem test_decode_rejects_unimplemented : decode [0x02, 0x00, 0x00] = .error (.unimplementedOpcode 0x02) := by decide
theorem test_decode_rejects_truncated : decode [0x6C, 0xFF] = .error .truncated := by decide
theorem test_decode_leaves_the_rest : decode [0xA9, 0x42, 0xEA] = .ok (.ldaImm 0x42, [0xEA]) := by decide
/-- The host's word view: LDA $1234 is 0xAD, 0x34, 0x12, the first byte in the low bits. -/
theorem test_decode_table_word : decodeTableWord 24 0x1234AD = some (.ldaAbs 0x1234) := by decide
theorem test_encode_branch : encode (.bne (-5)) = [0xD0, 0xFB] := by decide

/-! ## One step: derived vectors of 95_test_vectors.md section 2, by their ids -/

theorem test_lda_A21 :
    after (given { base with pc := 0xFFFF } [0xA9, 0x42] [(0x0000, 0x42)])
      (fun t => t.pc) = some 0x0001 := by decide
theorem test_lda_A8 :
    after (given { base with x := 0x01 } [0xBD, 0xFF, 0xFF] [(0x0000, 0x11)])
      (fun t => t.a) = some 0x11 := by decide
theorem test_lda_A11 :
    after
      (given { base with x := 0x01 } [0xA1, 0xFE] [(0x0000, 0x07), (0x00FF, 0x34), (0x0100, 0x02), (0x0234, 0xAA), (0x0734, 0xBB)])
      (fun t => t.a) = some 0xAA := by decide
theorem test_lda_A14 :
    after
      (given base [0xB1, 0xFF] [(0x0000, 0x07), (0x00FF, 0x34), (0x0100, 0x02), (0x0234, 0xAA), (0x0734, 0xBB)])
      (fun t => t.a) = some 0xAA := by decide
theorem test_jmp_A18 :
    after (given base [0x6C, 0xFF, 0x02] [(0x0200, 0x80), (0x02FF, 0x30), (0x0300, 0x5A)])
      (fun t => t.pc) = some 0x8030 := by decide
theorem test_jmp_A20 :
    after (given base [0x6C, 0xFF, 0x0A] [(0x0200, 0x80), (0x02FF, 0x30), (0x0300, 0x5A)])
      (fun t => t.pc) = some 0x8030 := by decide
theorem test_lda_A22 :
    after (given { base with pc := 0xFFFE } [0xAD, 0xFF, 0x00] [(0x0000, 0x00), (0x00FF, 0x99)])
      (fun t => t.a) = some 0x99 := by decide
theorem test_sta_A28 :
    after
      (given { base with a := 0x55, cfg := { Config.standard with prgMirror := true } } [0x8D, 0x23, 0xC1] [])
      (fun t => t.get 0x8123) = some 0x55 := by decide
theorem test_lda_A12 :
    (given { base with y := 0x01 } [0xB1, 0x20] [(0x0020, 0xFF), (0x0021, 0x02), (0x0300, 0x5A)]).stepCycles = some 6 := by decide
theorem test_adc_B5 :
    after (given { base with a := 0x50 } [0x69, 0x50] [])
      (fun t => (t.a, t.p)) = some (0xA0, 0xE4) := by decide
theorem test_adc_B8 :
    after (given { base with a := 0xFF, p := 0x25 } [0x69, 0xFF] [])
      (fun t => (t.a, t.p)) = some (0xFF, 0xA5) := by decide
theorem test_sbc_B16 :
    after (given { base with a := 0x03, p := 0x25 } [0xE9, 0x05] [])
      (fun t => (t.a, t.p)) = some (0xFE, 0xA4) := by decide
theorem test_sbc_B18 :
    after (given { base with a := 0x7F, p := 0x25 } [0xE9, 0xFF] [])
      (fun t => (t.a, t.p)) = some (0x80, 0xE4) := by decide
theorem test_and_C3 :
    after (given { base with a := 0x55, p := 0xE7 } [0x29, 0xFF] [])
      (fun t => (t.a, t.p)) = some (0x55, 0x65) := by decide
theorem test_and_C2 :
    after (given { base with a := 0x8F } [0x29, 0xF0] [])
      (fun t => (t.a, t.p)) = some (0x80, 0xA4) := by decide
theorem test_ora_C4 :
    after (given { base with a := 0x01 } [0x09, 0x80] [])
      (fun t => (t.a, t.p)) = some (0x81, 0xA4) := by decide
theorem test_ora_C5 :
    after (given base [0x09, 0x00] [])
      (fun t => (t.a, t.p)) = some (0x00, 0x26) := by decide
theorem test_eor_C9 :
    after (given { base with a := 0xAA } [0x41, 0x20] [(0x0020, 0x00), (0x0021, 0x03), (0x0300, 0x0A)])
      (fun t => (t.a, t.p)) = some (0xA0, 0xA4) := by decide
theorem test_eor_C7 :
    after (given { base with a := 0xFF } [0x49, 0xFF] [])
      (fun t => (t.a, t.p)) = some (0x00, 0x26) := by decide
theorem test_asl_D1 :
    after (given { base with a := 0x81 } [0x0A] [])
      (fun t => (t.a, t.p)) = some (0x02, 0x25) := by decide
theorem test_asl_D16 :
    after (given base [0x0E, 0x08, 0x20] [(0x2000, 0x41)])
      (fun t => (t.get 0x2000, t.p)) = some (0x82, 0xA4) := by decide
theorem test_lsr_D6 :
    after (given { base with a := 0x80, p := 0xA5 } [0x4A] [])
      (fun t => (t.a, t.p)) = some (0x40, 0x24) := by decide
theorem test_lsr_D7 :
    after (given base [0x4E, 0x04, 0x03] [(0x0304, 0xAC)])
      (fun t => (t.get 0x0304, t.p)) = some (0x56, 0x24) := by decide
theorem test_rol_D10 :
    after (given { base with a := 0x40, p := 0x25 } [0x2A] [])
      (fun t => (t.a, t.p)) = some (0x81, 0xA4) := by decide
theorem test_rol_D11 :
    after (given { base with x := 0x01, p := 0x25 } [0x36, 0x10] [(0x0011, 0x7F)])
      (fun t => (t.get 0x0011, t.p)) = some (0xFF, 0xA4) := by decide
theorem test_ror_D12 :
    after (given { base with a := 0x01, p := 0x25 } [0x6A] [])
      (fun t => (t.a, t.p)) = some (0x80, 0xA5) := by decide
theorem test_ror_D15 :
    after (given { base with x := 0x01 } [0x7E, 0xFF, 0x12] [(0x0300, 0x02)])
      (fun t => (t.get 0x0300, t.p)) = some (0x01, 0x24) := by decide
theorem test_cmp_E4 :
    after (given base [0xC9, 0xFF] [])
      (fun t => (t.a, t.p)) = some (0x00, 0x24) := by decide
theorem test_cmp_E5 :
    after (given { base with a := 0x80, p := 0x64 } [0xC9, 0x00] [])
      (fun t => t.p) = some 0xE5 := by decide
theorem test_cpx_E7 :
    after (given { base with x := 0x10 } [0xE0, 0x10] [])
      (fun t => t.p) = some 0x27 := by decide
theorem test_cpx_E8 :
    after (given { base with x := 0x05 } [0xE4, 0x10] [(0x0010, 0x06)])
      (fun t => t.p) = some 0xA4 := by decide
theorem test_cpy_E9 :
    after (given { base with y := 0xFF } [0xC0, 0x7F] [])
      (fun t => t.p) = some 0xA5 := by decide
theorem test_cpy_E10 :
    after (given base [0xCC, 0x00, 0x03] [(0x0300, 0x00)])
      (fun t => t.p) = some 0x27 := by decide
theorem test_bpl_F6 :
    after (given base [0x10, 0x7F] [])
      (fun t => t.pc) = some 0x8081 := by decide
theorem test_bpl_F7 :
    after (given { base with p := 0xA4 } [0x10, 0x7F] [])
      (fun t => t.pc) = some 0x8002 := by decide
theorem test_bmi_F8 :
    after (given { base with p := 0xA4 } [0x30, 0x80] [])
      (fun t => t.pc) = some 0x7F82 ∧
    (given { base with p := 0xA4 } [0x30, 0x80] []).stepCycles = some 4 := by decide
theorem test_bmi_F9 :
    after (given { base with p := 0xA4 } [0x30, 0x00] [])
      (fun t => t.pc) = some 0x8002 ∧
    (given { base with p := 0xA4 } [0x30, 0x00] []).stepCycles = some 3 := by decide
theorem test_bvc_F10 :
    after (given base [0x50, 0x02] [])
      (fun t => t.pc) = some 0x8004 := by decide
theorem test_bvc_F11 :
    after (given { base with p := 0x64 } [0x50, 0x02] [])
      (fun t => t.pc) = some 0x8002 := by decide
theorem test_bvs_F12 :
    after (given { base with p := 0x64 } [0x70, 0x02] [])
      (fun t => t.pc) = some 0x8004 := by decide
theorem test_bcc_F13 :
    after (given base [0x90, 0x02] [])
      (fun t => t.pc) = some 0x8004 := by decide
theorem test_bcc_F14 :
    after (given { base with p := 0x25 } [0x90, 0x02] [])
      (fun t => t.pc) = some 0x8002 := by decide
theorem test_bcs_F15 :
    after (given { base with p := 0x25 } [0xB0, 0x02] [])
      (fun t => t.pc) = some 0x8004 := by decide
theorem test_bcs_F16 :
    after (given base [0xB0, 0x02] [])
      (fun t => t.pc) = some 0x8002 := by decide
theorem test_bne_F22 :
    after (given { base with pc := 0x0000 } [0xD0, 0xFD] [])
      (fun t => t.pc) = some 0xFFFF ∧
    (given { base with pc := 0x0000 } [0xD0, 0xFD] []).stepCycles = some 4 := by decide
theorem test_bne_F3 :
    after (given { base with pc := 0x800E, p := 0x26 } [0xD0, 0x05] [])
      (fun t => t.pc) = some 0x8010 := by decide
theorem test_beq_F21 :
    after (given { base with pc := 0xFFF8, p := 0x26 } [0xF0, 0x10] [])
      (fun t => t.pc) = some 0x000A := by decide
theorem test_beq_F5 :
    after (given base [0xF0, 0x05] [])
      (fun t => t.pc) = some 0x8002 := by decide
theorem test_inc_G1 :
    after (given base [0xE6, 0x10] [(0x0010, 0xFF)])
      (fun t => (t.get 0x0010, t.p)) = some (0x00, 0x26) := by decide
theorem test_inc_G2 :
    after (given base [0xE6, 0x10] [(0x0010, 0x7F)])
      (fun t => (t.get 0x0010, t.p)) = some (0x80, 0xA4) := by decide
theorem test_dec_G4 :
    after (given base [0xC6, 0x10] [(0x0010, 0x00)])
      (fun t => (t.get 0x0010, t.p)) = some (0xFF, 0xA4) := by decide
theorem test_dec_G6 :
    after (given { base with x := 0x01 } [0xDE, 0xFF, 0x12] [(0x0300, 0x80)])
      (fun t => (t.get 0x0300, t.p)) = some (0x7F, 0x24) := by decide
theorem test_inx_G7 :
    after (given { base with x := 0xFF } [0xE8] [])
      (fun t => (t.x, t.p)) = some (0x00, 0x26) := by decide
theorem test_inx_G8 :
    after (given { base with x := 0x7F, p := 0x65 } [0xE8] [])
      (fun t => (t.x, t.p)) = some (0x80, 0xE5) := by decide
theorem test_iny_G9 :
    after (given { base with y := 0xFE } [0xC8] [])
      (fun t => (t.y, t.p)) = some (0xFF, 0xA4) := by decide
theorem test_dex_G10 :
    after (given base [0xCA] [])
      (fun t => (t.x, t.p)) = some (0xFF, 0xA4) := by decide
theorem test_dex_G11 :
    after (given { base with x := 0x01 } [0xCA] [])
      (fun t => (t.x, t.p)) = some (0x00, 0x26) := by decide
theorem test_dey_G12 :
    after (given { base with y := 0x80 } [0x88] [])
      (fun t => (t.y, t.p)) = some (0x7F, 0x24) := by decide
theorem test_lda_H1 :
    after (given base [0xAD, 0x00, 0x03] [(0x0300, 0xFF)])
      (fun t => (t.a, t.p)) = some (0xFF, 0xA4) := by decide
theorem test_ldx_H3 :
    after (given { base with y := 0xCC } [0xBE, 0x34, 0x12] [(0x0300, 0x80)])
      (fun t => (t.x, t.p)) = some (0x80, 0xA4) := by decide
theorem test_ldx_H2 :
    after (given { base with x := 0x55 } [0xA2, 0x00] [])
      (fun t => (t.x, t.p)) = some (0x00, 0x26) := by decide
theorem test_ldy_H5 :
    after (given { base with x := 0xF0 } [0xB4, 0x10] [(0x0000, 0x9C)])
      (fun t => (t.y, t.p)) = some (0x9C, 0xA4) := by decide
theorem test_ldy_H4 :
    after (given { base with p := 0xA6 } [0xA0, 0x7F] [])
      (fun t => (t.y, t.p)) = some (0x7F, 0x24) := by decide
theorem test_sta_H9 :
    after (given { base with a := 0x77, x := 0x02 } [0x81, 0x20] [(0x0022, 0x00), (0x0023, 0x04)])
      (fun t => t.get 0x0400) = some 0x77 := by decide
theorem test_sta_H15 :
    after (given { base with a := 0x99 } [0x8D, 0x01, 0x80] [])
      (fun t => (t.get 0x8000, t.get 0x8001, t.get 0x8002)) = some (0x8D, 0x99, 0x80) := by decide
theorem test_stx_H11 :
    after (given { base with x := 0x33, y := 0xF1 } [0x96, 0x10] [])
      (fun t => t.get 0x0001) = some 0x33 := by decide
theorem test_stx_H12 :
    after (given base [0x8E, 0x00, 0x03] [])
      (fun t => t.get 0x0300) = some 0x00 := by decide
theorem test_sty_H13 :
    after (given { base with x := 0x01, y := 0x44 } [0x94, 0x10] [])
      (fun t => t.get 0x0011) = some 0x44 := by decide
theorem test_sty_H14 :
    after (given { base with y := 0x80 } [0x84, 0x10] [])
      (fun t => t.get 0x0010) = some 0x80 := by decide
theorem test_tax_I1 :
    after (given { base with a := 0x80 } [0xAA] [])
      (fun t => (t.x, t.p)) = some (0x80, 0xA4) := by decide
theorem test_tay_I2 :
    after (given { base with y := 0x11 } [0xA8] [])
      (fun t => (t.y, t.p)) = some (0x00, 0x26) := by decide
theorem test_txa_I3 :
    after (given { base with a := 0xFF, x := 0x7F, p := 0xA4 } [0x8A] [])
      (fun t => (t.a, t.p)) = some (0x7F, 0x24) := by decide
theorem test_tya_I4 :
    after (given { base with y := 0xFF } [0x98] [])
      (fun t => (t.a, t.p)) = some (0xFF, 0xA4) := by decide
theorem test_tsx_I5 :
    after (given { base with x := 0x55, sp := 0x00 } [0xBA] [])
      (fun t => (t.x, t.p)) = some (0x00, 0x26) := by decide
theorem test_tsx_I6 :
    after (given base [0xBA] [])
      (fun t => (t.x, t.p)) = some (0xFD, 0xA4) := by decide
theorem test_txs_I7 :
    after (given base [0x9A] [])
      (fun t => (t.sp, t.p)) = some (0x00, 0x24) := by decide
theorem test_txs_I8 :
    after (given { base with x := 0x80, p := 0x26 } [0x9A] [])
      (fun t => (t.sp, t.p)) = some (0x80, 0x26) := by decide
theorem test_pha_I9 :
    after (given { base with a := 0x7F } [0x48] [])
      (fun t => (t.get 0x01FD, t.sp)) = some (0x7F, 0xFC) := by decide
theorem test_pha_I10 :
    after (given { base with a := 0x12, sp := 0x00 } [0x48] [])
      (fun t => (t.get 0x0100, t.sp)) = some (0x12, 0xFF) := by decide
theorem test_php_I11 :
    after (given base [0x08] [])
      (fun t => (t.get 0x01FD, t.p)) = some (0x34, 0x24) := by decide
theorem test_php_I12 :
    after (given { base with p := 0xC3 } [0x08] [])
      (fun t => (t.get 0x01FD, t.p)) = some (0xF3, 0xC3) := by decide
theorem test_pla_I13 :
    after (given { base with sp := 0xFC } [0x68] [(0x01FD, 0x80)])
      (fun t => (t.a, t.sp)) = some (0x80, 0xFD) := by decide
theorem test_pla_I14 :
    after (given { base with a := 0x55, sp := 0xFF } [0x68] [(0x0100, 0x00)])
      (fun t => (t.a, t.sp, t.p)) = some (0x00, 0x00, 0x26) := by decide
theorem test_plp_I15 :
    after (given { base with sp := 0xFC } [0x28] [(0x01FD, 0xFF)])
      (fun t => (t.p, t.sp)) = some (0xFF, 0xFD) := by decide
theorem test_plp_I16 :
    after (given { base with sp := 0xFC, p := 0xFF } [0x28] [(0x01FD, 0x00)])
      (fun t => (t.p, t.sp)) = some (0x00, 0xFD) := by decide
theorem test_jmp_J2 :
    after (given base [0x4C, 0x00, 0x80] [])
      (fun t => t.pc) = some 0x8000 := by decide
theorem test_jsr_J4 :
    after (given { base with sp := 0x00 } [0x20, 0x34, 0x12] [])
      (fun t => (t.get 0x0100, t.get 0x01FF, t.sp)) = some (0x80, 0x02, 0xFE) := by decide
theorem test_jsr_J5 :
    after (given { base with pc := 0xFFFD } [0x20, 0x00, 0x90] [])
      (fun t => (t.get 0x01FD, t.get 0x01FC, t.pc)) = some (0xFF, 0xFF, 0x9000) := by decide
theorem test_rts_J7 :
    after (given base [0x60] [(0x01FE, 0xFF), (0x01FF, 0xFF)])
      (fun t => (t.pc, t.sp)) = some (0x0000, 0xFF) := by decide
theorem test_rts_J8 :
    after (given { base with sp := 0xFF } [0x60] [(0x0100, 0x34), (0x0101, 0x12)])
      (fun t => (t.pc, t.sp)) = some (0x1235, 0x01) := by decide
theorem test_rti_J9 :
    after (given { base with sp := 0xFA } [0x40] [(0x01FB, 0x34), (0x01FC, 0x03), (0x01FD, 0x80)])
      (fun t => (t.p, t.pc)) = some (0x34, 0x8003) := by decide
theorem test_rti_J10 :
    after (given { base with sp := 0xFA, p := 0xFF } [0x40] [(0x01FB, 0x00), (0x01FC, 0xFF), (0x01FD, 0xFF)])
      (fun t => (t.p, t.pc)) = some (0x00, 0xFFFF) := by decide
theorem test_brk_J12 :
    after (given { base with sp := 0x01, pc := 0x8002, p := 0xC3 } [0x00] [(0xFFFE, 0x00), (0xFFFF, 0x90)])
      (fun t => (t.get 0x0101, t.get 0x0100, t.get 0x01FF, t.sp, t.p)) = some (0x80, 0x03, 0xF3, 0xFE, 0xD7) := by decide
theorem test_brk_J14 :
    after (given { base with pc := 0xFFFF } [0x00] [(0xFFFE, 0x00)])
      (fun t => (t.get 0x01FD, t.get 0x01FC, t.get 0x01FB, t.pc)) = some (0x00, 0x00, 0x34, 0x0000) := by decide
theorem test_nop_J15 :
    after (given { base with a := 0x12, x := 0x34, y := 0x56, p := 0xE7 } [0xEA] [])
      (fun t => (t.p, t.pc)) = some (0xE7, 0x8001) := by decide
theorem test_clc_K1 :
    after (given { base with p := 0x25 } [0x18] [])
      (fun t => t.p) = some 0x24 := by decide
theorem test_clc_K8 :
    after (given { base with p := 0xFF } [0x18] [])
      (fun t => t.p) = some 0xFE := by decide
theorem test_sec_K2 :
    after (given base [0x38] [])
      (fun t => t.p) = some 0x25 := by decide
theorem test_cli_K3 :
    after (given base [0x58] [])
      (fun t => t.p) = some 0x20 := by decide
theorem test_sei_K4 :
    after (given { base with p := 0x20 } [0x78] [])
      (fun t => t.p) = some 0x24 := by decide
theorem test_clv_K5 :
    after (given { base with p := 0x64 } [0xB8] [])
      (fun t => t.p) = some 0x24 := by decide
theorem test_cld_K6 :
    after (given { base with p := 0x2C } [0xD8] [])
      (fun t => t.p) = some 0x24 := by decide
theorem test_sed_K7 :
    after (given base [0xF8] [])
      (fun t => t.p) = some 0x2C := by decide
theorem test_bit_K10 :
    after (given base [0x24, 0x10] [(0x0010, 0xC0)])
      (fun t => t.p) = some 0xE6 := by decide
theorem test_bit_K12 :
    after (given { base with a := 0x0F, p := 0x25 } [0x2C, 0x00, 0x03] [(0x0300, 0xF0)])
      (fun t => t.p) = some 0xE7 := by decide

/-! ## The unimplemented opcode (vectors U1 and U5) -/

theorem test_unimplemented_U1 : stopOf (given base [0x02] []) = some (.unimplementedOpcode 0x02 0x8000) := by decide
theorem test_unimplemented_U5 :
    stopOf (given base [0x80, 0x00] []) = some (.unimplementedOpcode 0x80 0x8000) ∧
    (given base [0x80, 0x00] []).stepCycles = none := by decide

/-! ## Memory, flags and reset -/

/-- S1 and S2: every alias of a RAM and of an IO cell reads the byte written through one of them. -/
theorem test_aliases_S1_S2 :
    let s := (base.set 0x0801 0x5A).set 0x3FFA 0x77
    s.get 0x0001 = 0x5A ∧ s.get 0x1001 = 0x5A ∧ s.get 0x1801 = 0x5A ∧ s.get 0x2002 = 0x77 ∧ s.get 0x200A = 0x77 := by
  decide

/-- R51 at the ends of its four ranges. -/
theorem test_fold_at_the_ends :
    fold false 0x1FFF = 0x07FF ∧ fold false 0x2000 = 0x2000 ∧ fold false 0x3FFF = 0x2007 ∧ fold false 0x4000 = 0x4000 ∧
    fold true 0x7FFF = 0x7FFF ∧ fold true 0x8000 = 0x8000 ∧ fold true 0xC000 = 0x8000 ∧ fold true 0xFFFF = 0xBFFF ∧
    fold false 0xFFFF = 0xFFFF := by decide

/-- Writing the byte an unlisted cell reads as removes the cell, so that equal memories are equal data. -/
theorem test_writing_zero_unlists : ((base.set 0x0010 0x55).set 0x0810 0x00).mem = [] := by decide
theorem test_writes_commute :
    ((base.set 0x0300 0x01).set 0x0010 0x02).mem = ((base.set 0x0010 0x02).set 0x0300 0x01).mem := by decide

/-- S4: the flag ALU with mask {Zero} and t = 0. -/
theorem test_flag_isolation_S4 : computeFlags [.zero] 0 0x00 0x00 0xC1 = 0xC3 := by decide

/-- R230, R35, as every program of 95_test_vectors.md section 3 starts. -/
theorem test_reset_from_the_vector :
    let s := ((base.set 0xFFFC 0x00).set 0xFFFD 0x80).applyReset 0x00 0x00 0x00
    s.pc = 0x8000 ∧ s.sp = 0xFD ∧ s.p = 0x24 := by decide

/-- R5, R68: an outside write between two steps is seen by the next fetch. -/
theorem test_outside_write_is_fetched :
    (match applyEvents [.step, .write 0x8001 0xE8, .step] (given base [0xEA, 0xCA] []) with
      | .next t => some t.x
      | .fault _ => none
      | .refused _ => none) = some 0x01 := by decide

theorem test_placed_word_runs : after (State.reset.withFetchWord 16 0x42A9) (fun t => t.a) = some 0x42 := by decide

/-! ## Witnesses: for each obligation with hypotheses, a state and operands that meet them -/

theorem witness_DecodeOfEncodeIsTheInstruction : (Instr.bne (-128)).wf = true ∧ (Instr.beq 127).wf = true := by decide

theorem witness_EncodeOfDecodeIsTheBytes : decode [0xD0, 0x80, 0xEA] = .ok (.bne (-128), [0xEA]) := by decide

theorem witness_UnimplementedBytesAreNoInstruction :
    (0x02#8 ∈ unimplementedBytes ∧ (given base [0x02] []).get (given base [0x02] []).pc = 0x02#8) ∧
    (0xFF#8 ∈ unimplementedBytes ∧ (given base [0xFF] []).get (given base [0xFF] []).pc = 0xFF#8) ∧
    0x00#8 ∉ unimplementedBytes := by decide

/-- A row of length 1, one of length 2 and one of length 3. -/
theorem witness_EveryRowBuildsItsOwnInstruction :
    ((lookupOpcode 0x0A).map (·.mode.length) = some 1 ∧ (lookupOpcode 0xF0).map (·.mode.length) = some 2 ∧
      (lookupOpcode 0x6C).map (·.mode.length) = some 3) := by decide

/-- The instruction's bytes at 0xFFFE, 0xFFFF and 0x0000 (vector A22). -/
theorem witness_StepRunsTheDecodedInstruction :
    let s := given { base with pc := 0xFFFE } [0xAD, 0xFF, 0x00] []
    decode [s.get s.pc, s.get (s.pc + 1#16), s.get (s.pc + 2#16)] = .ok (.ldaAbs 0x00FF, []) := by decide

/-- A byte without a row, a byte with one, a flag the instruction does not write, and an instruction that does not
write PC. -/
theorem witness_StepFollowsItsSixSteps :
    lookupOpcode ((given base [0xFF] []).get 0x8000) = none ∧
    (lookupOpcode ((given base [0xA9] []).get 0x8000)).map (·.mnemonic) = some .lda ∧
    Mnemonic.lda ∉ flagWriters .carry ∧ Mnemonic.lda ∉ pcWriters := by decide

theorem witness_UnimplementedOpcodeIsTheOnlyStop :
    base.get base.pc = 0x00#8 ∧ (given base [0xEA] []).get 0x8000 ∉ unimplementedBytes ∧
    (given base [0xFF] []).get 0x8000 ∈ unimplementedBytes := by decide

/-- The step of a JSR, from a state with the invariant. -/
theorem witness_StepKeepsTheInvariant :
    (given base [0x20, 0x34, 0x12] []).Inv ∧ ∃ t, step (given base [0x20, 0x34, 0x12] []) = .next t :=
  ⟨by decide, next_of_after (by decide)⟩

/-- An outside write, a reset and a step. -/
theorem witness_EventsKeepTheInvariant :
    (given base [0xEA] []).Inv ∧
    (match applyEvents [.write 0x1FFF 0x01, .reset 0x01 0x02 0x03, .step] (given base [0xEA] []) with
      | .next _ => true
      | .fault _ => false
      | .refused _ => false) = true := by decide

/-- Two states with the same memory and configuration and different registers. -/
theorem witness_ResetLoadsThePCFromTheVector :
    ({ base with a := 0x55, pc := 0x1234 } : State).mem = base.mem ∧
    ({ base with a := 0x55, pc := 0x1234 } : State).cfg = base.cfg := by decide

/-- For every flag: an instruction that does not write it and one that does not read it. -/
theorem witness_FlagsAreWrittenAndReadOnlyWhereListed :
    (∃ t, exec .nop base = .next t) ∧ (∀ f, Mnemonic.nop ∉ flagWriters f ∧ Mnemonic.nop ∉ flagReaders f) ∧
    (Mnemonic.php ∉ flagReaders .brk ∧ Mnemonic.php ∉ flagReaders .unused) ∧
    EqualBut .decimal base { base with p := 0x2C } := by
  refine ⟨⟨_, rfl⟩, fun f => by cases f <;> decide, by decide, rfl, rfl, rfl, rfl, rfl, rfl, rfl, ?_⟩
  intro g hg
  cases g <;> first | rfl | decide | exact absurd rfl hg

/-- Each clause: an instruction outside its list, and for PC a branch that is not taken. -/
theorem witness_RegistersAreWrittenOnlyWhereListed :
    (∃ t, exec (.bne 5) { base with p := 0x26 } = .next t) ∧ (∃ t, exec (.aslZp 0x10) base = .next t) ∧
    (Mnemonic.asl ∉ [Mnemonic.adc, .sbc, .and, .ora, .eor, .lda, .pla, .txa, .tya] ∧
      (Instr.aslZp 0x10).mode ≠ .accumulator) ∧
    Mnemonic.asl ∉ [Mnemonic.ldx, .inx, .dex, .tax, .tsx] ∧ Mnemonic.asl ∉ [Mnemonic.ldy, .iny, .dey, .tay] ∧
    Mnemonic.asl ∉ [Mnemonic.pha, .php, .pla, .plp, .jsr, .rts, .rti, .brk, .txs] ∧ Mnemonic.asl ∉ pcWriters ∧
    ((Mnemonic.bne, Flag.zero, false) ∈ branchTests ∧ ({ base with p := 0x26 } : State).flag .zero ≠ false) := by
  refine ⟨⟨_, rfl⟩, ⟨_, rfl⟩, ?_⟩
  decide

/-- An instruction that stores in no form, and the form of a shift that stores nothing. -/
theorem witness_MemoryIsWrittenOnlyByStoringForms :
    (∃ t, exec (.ldaZp 0x10) base = .next t) ∧ (∃ t, exec .aslAcc base = .next t) ∧
    Mnemonic.lda ∉ memoryWriters ∧ Mnemonic.asl ∈ memoryWriters ∧ Instr.aslAcc.mode = .accumulator :=
  ⟨⟨_, rfl⟩, ⟨_, rfl⟩, by decide, by decide, rfl⟩

/-- The ends of each range of R51. -/
theorem witness_FoldFollowsTheFourRanges :
    (0x0000#16).toNat ≤ 0x1FFF ∧ (0x1FFF#16).toNat ≤ 0x1FFF ∧
    (0x2000 ≤ (0x2000#16).toNat ∧ (0x2000#16).toNat ≤ 0x3FFF) ∧
    (0x2000 ≤ (0x3FFF#16).toNat ∧ (0x3FFF#16).toNat ≤ 0x3FFF) ∧
    0x8000 ≤ (0x8000#16).toNat ∧ 0x8000 ≤ (0xFFFF#16).toNat ∧
    (0x4000 ≤ (0x4000#16).toNat ∧ (0x4000#16).toNat ≤ 0x7FFF) ∧
    (0x4000 ≤ (0x7FFF#16).toNat ∧ (0x7FFF#16).toNat ≤ 0x7FFF) := by decide

theorem witness_GetAndSetAccessTheFoldedCell : 0x0801 ≠ (fold base.cfg.prgMirror 0x0801).toNat := by decide

/-- An alias, an address that is no alias, and the ends of the two mirrored ranges. -/
theorem witness_AliasesOfACellAreConsistent :
    fold base.cfg.prgMirror 0x1FFF = fold base.cfg.prgMirror 0x07FF ∧
    fold base.cfg.prgMirror 0x2000 ≠ fold base.cfg.prgMirror 0x1FFF ∧
    (0x1FFF#16).toNat ≤ 0x1FFF ∧ 0x2000 ≤ (0x2000#16).toNat ∧ (0x3FFF#16).toNat ≤ 0x3FFF := by decide

theorem witness_CanonicalMemoriesThatReadAlikeAreEqual :
    Memory.wf [(0x0000, 0x01), (0xFFFF, 0xFF)] ∧ Memory.wf ([] : Memory) := by decide

theorem witness_StoredInstructionIsTheNextFetched : (Instr.bne (-128)).wf = true ∧ (Instr.jmpInd 0x02FF).wf = true := by
  decide

theorem witness_ZeroPageAddressesWrapWithinPageZero :
    (Instr.ldxZpy 0xFF).mode = .zeroPageY ∧ (Instr.stxZpy 0x00).mode = .zeroPageY := by decide

/-- A pointer at the end of a page, the one before it, the one after it, and the last of all. -/
theorem witness_IndirectTakesTheHighByteFromTheSamePage :
    (0x02FF#16).toNat % 256 = 0xFF ∧ (0xFFFF#16).toNat % 256 = 0xFF ∧ (0x02FE#16).toNat % 256 ≠ 0xFF ∧
    (0x0300#16).toNat % 256 ≠ 0xFF ∧ (Instr.jmpInd 0x02FF).mode = .indirect := by decide

/-- Both sides of the sign of an offset byte, and a branch. -/
theorem witness_RelativeTargetsCountFromTheNextInstruction :
    (0x7F#8).toNat < 0x80 ∧ ¬ (0x80#8).toNat < 0x80 ∧ (Instr.bne 0).mode = .relative := by decide

/-- An immediate operand at 0x0000, its opcode byte at 0xFFFF (vector A21). -/
theorem witness_ImmediateOperandIsTheByteAfterTheOpcode :
    (given { base with pc := 0xFFFF } [0xA9, 0x42] []).fetch = some (.ldaImm 0x42) ∧
    (Instr.ldaImm 0x42).operand = .at (.immediate 0x42) ∧ Instr.inx.mode = .implied := by decide

/-- The first and the last flag, the lowest and the highest bit. -/
theorem witness_FlagUnitTouchesOneBit :
    (∀ fn ∈ [(Flag.carry, 0), (.sign, 7)],
      fn ∈ [(Flag.carry, 0), (.zero, 1), (.interruptDisable, 2), (.decimal, 3), (.brk, 4), (.unused, 5),
        (.overflow, 6), (.sign, 7)]) ∧
    0 < 8 ∧ 7 < 8 := by decide

theorem witness_FlagALURecomputesExactlyItsMask :
    Flag.overflow ∉ [Flag.carry, .zero, .sign] ∧ Flag.brk ∈ [Flag.interruptDisable, .decimal, .brk, .unused] ∧
    Flag.carry ∈ [Flag.carry, .zero, .sign] ∧ Flag.zero ∈ [Flag.carry, .zero, .sign] ∧
    Flag.sign ∈ [Flag.carry, .zero, .sign] ∧ Flag.overflow ∈ [Flag.overflow] := by decide

/-- The instruction and operand of a form: what the statements about one mnemonic ask of `i` and `m`. -/
abbrev IsForm (i : Instr) (mn : Mnemonic) (m : EaMode) : Prop := i.mnemonic = mn ∧ i.operand = .at m

theorem witness_AdcAddsMemoryAndCarry :
    IsForm (.adcImm 0xFF) .adc (.immediate 0xFF) ∧ IsForm (.adcIzy 0xFF) .adc (.indirectIndexed 0xFF) := by
  decide

theorem witness_SbcSubtractsMemoryAndBorrow :
    IsForm (.sbcImm 0x00) .sbc (.immediate 0x00) ∧ IsForm (.sbcAbx 0xFFFF) .sbc (.absoluteX 0xFFFF) := by
  decide

/-- A sum and a difference that overflow, and a sum that does not. -/
theorem witness_OverflowIsSignedOverflow :
    IsForm (.adcImm 0x50) .adc (.immediate 0x50) ∧ IsForm (.sbcImm 0xB0) .sbc (.immediate 0xB0) ∧
    (∃ t, exec (.adcImm 0x50) { base with a := 0x50 } = .next t ∧ t.flag .overflow = true) ∧
    (∃ t, exec (.sbcImm 0xB0) { base with a := 0x50, p := 0x25 } = .next t ∧ t.flag .overflow = true) ∧
    ∃ t, exec (.adcImm 0x50) base = .next t ∧ t.flag .overflow = false :=
  ⟨by decide, by decide, ⟨_, rfl, by decide⟩, ⟨_, rfl, by decide⟩, ⟨_, rfl, by decide⟩⟩

theorem witness_LogicalOperationsWorkBitByBit :
    IsForm (.andImm 0x0F) .and (.immediate 0x0F) ∧ IsForm (.oraAby 0x12FF) .ora (.absoluteY 0x12FF) ∧
    IsForm (.eorIzx 0x20) .eor (.indexedIndirect 0x20) := by decide

/-- Both kinds of operand, the accumulator and a byte of memory. -/
theorem witness_LeftShiftsMoveBitSevenToCarry :
    Instr.aslAcc.mnemonic = .asl ∧ Instr.aslAcc.operand = .accumulator ∧ IsForm (.aslZp 0x10) .asl (.zeroPage 0x10) ∧
    Instr.rolAcc.mnemonic = .rol ∧ Instr.rolAcc.operand = .accumulator ∧
    IsForm (.rolAbx 0x12FF) .rol (.absoluteX 0x12FF) := by decide

theorem witness_RightShiftsMoveBitZeroToCarry :
    Instr.lsrAcc.mnemonic = .lsr ∧ Instr.lsrAcc.operand = .accumulator ∧ IsForm (.lsrZp 0x10) .lsr (.zeroPage 0x10) ∧
    Instr.rorAcc.mnemonic = .ror ∧ Instr.rorAcc.operand = .accumulator ∧
    IsForm (.rorAbx 0x12FF) .ror (.absoluteX 0x12FF) ∧ (∃ t, exec .rorAcc base = .next t) :=
  ⟨rfl, rfl, by decide, rfl, rfl, by decide, ⟨_, rfl⟩⟩

theorem witness_ComparesSetFlagsFromTheDifference :
    (IsForm (.cmpImm 0xFF) .cmp (.immediate 0xFF) ∧ IsForm (.cpxZp 0x10) .cpx (.zeroPage 0x10) ∧
      IsForm (.cpyAbs 0x0300) .cpy (.absolute 0x0300)) ∧
    (Mnemonic.cpy, base.y) ∈ [(Mnemonic.cmp, base.a), (.cpx, base.x), (.cpy, base.y)] := by decide

/-- A branch at each end of its offset range. -/
theorem witness_BranchesTestTheirFlag :
    IsForm (.bmi (-128)) .bmi (.relative (-128)) ∧ IsForm (.bpl 127) .bpl (.relative 127) ∧
    (Mnemonic.bmi, Flag.sign, true) ∈ branchTests ∧ (Mnemonic.bpl, Flag.sign, false) ∈ branchTests ∧
    (lookupOpcode (Instr.bmi (-128)).opcode).map (·.baseCycles) = some 2 := by decide

theorem witness_IncAndDecChangeMemoryByOne :
    IsForm (.incZp 0xFF) .inc (.zeroPage 0xFF) ∧ IsForm (.decAbx 0xFFFF) .dec (.absoluteX 0xFFFF) ∧
    (Mnemonic.inc, 1) ∈ [(Mnemonic.inc, 1), (.dec, 255)] ∧ (Mnemonic.dec, 255) ∈ [(Mnemonic.inc, 1), (.dec, 255)] := by
  decide

theorem witness_IndexRegistersCountByOne :
    Instr.inx.mnemonic = .inx ∧ Instr.iny.mnemonic = .iny ∧ Instr.dex.mnemonic = .dex ∧ Instr.dey.mnemonic = .dey := by
  decide

theorem witness_LoadsPutTheOperandInTheRegister :
    IsForm (.ldaIzy 0xFF) .lda (.indirectIndexed 0xFF) ∧ IsForm (.ldxZpy 0xFF) .ldx (.zeroPageY 0xFF) ∧
    IsForm (.ldyAbx 0x12FF) .ldy (.absoluteX 0x12FF) := by decide

theorem witness_StoresWriteTheRegisterToMemory :
    (IsForm (.staIzx 0x20) .sta (.indexedIndirect 0x20) ∧ IsForm (.stxZpy 0x10) .stx (.zeroPageY 0x10) ∧
      IsForm (.styAbs 0xFFFF) .sty (.absolute 0xFFFF)) ∧
    (Mnemonic.sty, base.y) ∈ [(Mnemonic.sta, base.a), (.stx, base.x), (.sty, base.y)] := by decide

theorem witness_TransfersCopyARegister :
    Instr.tax.mnemonic = .tax ∧ Instr.tay.mnemonic = .tay ∧ Instr.txa.mnemonic = .txa ∧ Instr.tya.mnemonic = .tya ∧
    Instr.tsx.mnemonic = .tsx ∧ Instr.txs.mnemonic = .txs := by decide

theorem witness_PushesStoreAtTheStackPointer :
    (Instr.pha.mnemonic, base.a) ∈ [(Mnemonic.pha, base.a), (.php, base.p ||| 0x30#8)] ∧
    (Instr.php.mnemonic, 0x34#8) ∈ [(Mnemonic.pha, base.a), (.php, base.p ||| 0x30#8)] := by decide

theorem witness_PullsLoadFromTheStack : Instr.pla.mnemonic = .pla ∧ Instr.plp.mnemonic = .plp := by decide

theorem witness_JmpLoadsThePC :
    IsForm (.jmpAbs 0xFFFF) .jmp (.absolute 0xFFFF) ∧ IsForm (.jmpInd 0x02FF) .jmp (.indirect 0x02FF) := by
  decide

theorem witness_JsrPushesTheAddressOfItsLastByte : IsForm (.jsr 0x1234) .jsr (.absolute 0x1234) := by decide

theorem witness_RtsReturnsPastThePulledAddress : Instr.rts.mnemonic = .rts := rfl

theorem witness_RtiRestoresTheFlagsAndThePC : Instr.rti.mnemonic = .rti := rfl

theorem witness_BrkEntersTheTrap : Instr.brk.mnemonic = .brk := rfl

theorem witness_NopChangesNothing :
    Instr.nop.mnemonic = .nop ∧ (given base [0xEA] []).get (given base [0xEA] []).pc = 0xEA#8 := by decide

theorem witness_FlagInstructionsWriteOneFlag :
    ∀ c ∈ [(Instr.clc.mnemonic, Flag.carry, false), (Instr.sed.mnemonic, Flag.decimal, true)],
      c ∈ [(Mnemonic.clc, Flag.carry, false), (.sec, .carry, true), (.cli, .interruptDisable, false),
        (.sei, .interruptDisable, true), (.clv, .overflow, false), (.cld, .decimal, false), (.sed, .decimal, true)] := by decide

theorem witness_BitTestsMemoryAgainstTheAccumulator :
    IsForm (.bitZp 0x10) .bit (.zeroPage 0x10) ∧ IsForm (.bitAbs 0x0300) .bit (.absolute 0x0300) := by decide

/-- A BRK whose pushes wrap inside the stack page. -/
theorem witness_RtiUndoesBrk :
    Instr.brk.mnemonic = .brk ∧ Instr.rti.mnemonic = .rti ∧ ∃ t, exec .brk { base with sp := 0x01 } = .next t :=
  ⟨rfl, rfl, _, rfl⟩

theorem witness_RtsUndoesJsr :
    (Instr.jsr 0x1234).mnemonic = .jsr ∧ Instr.rts.mnemonic = .rts ∧
    ∃ t, exec (.jsr 0x1234) { base with sp := 0x00 } = .next t := ⟨rfl, rfl, _, rfl⟩

/-- Each clause: an indexed read across a page, an Implied instruction, a branch not taken and one taken. -/
theorem witness_CycleTotalFollowsItsFormula :
    (given { base with x := 0x01 } [0xBD, 0xFF, 0x12] []).fetch = some (.ldaAbx 0x12FF) ∧
    (∀ f b, (Mnemonic.lda, f, b) ∉ branchTests) ∧ Instr.inx.operand = .implied ∧
    (given base [0xF0, 0x05] []).fetch = some (.beq 5) ∧ base.flag .zero ≠ true ∧
    (given base [0xD0, 0x05] []).fetch = some (.bne 5) ∧ (Mnemonic.bne, Flag.zero, false) ∈ branchTests ∧
    base.flag .zero = false := by
  refine ⟨by decide, ?_, by decide⟩
  intro f b
  cases f <;> cases b <;> decide

end Sys2Proof.Tests
end

section
/-! Proofs of the family 10_state.md: the single-bit flag operations (O31), and who writes and who reads each flag
(O13). -/

namespace Sys2Proof.Proofs

open Sys2Proof.Machine Sys2Proof.Terms Sys2Proof.Laws

/-! ## Single-bit flag operations (10_state.md R28) -/

/-- A flag's mask has exactly the flag's bit. -/
theorem getLsbD_mask (f : Flag) {k : Nat} (hk : k < 8) : f.mask.getLsbD k = decide (k = flagBit f) := by
  revert k
  cases f <;> decide

theorem getLsbD_setFlag (f : Flag) (p : Byte) {k : Nat} (hk : k < 8) :
    (setFlag f p).getLsbD k = (decide (k = flagBit f) || p.getLsbD k) := by
  rw [setFlag, BitVec.getLsbD_or, getLsbD_mask f hk, Bool.or_comm]

theorem getLsbD_clearFlag (f : Flag) (p : Byte) {k : Nat} (hk : k < 8) :
    (clearFlag f p).getLsbD k = (!decide (k = flagBit f) && p.getLsbD k) := by
  rw [clearFlag, BitVec.getLsbD_and, BitVec.getLsbD_not, getLsbD_mask f hk, decide_eq_true hk, Bool.true_and,
    Bool.and_comm]

theorem getLsbD_assignFlag (f : Flag) (b : Bool) (p : Byte) {k : Nat} (hk : k < 8) :
    (assignFlag f b p).getLsbD k = if k = flagBit f then b else p.getLsbD k := by
  cases b with
  | false =>
    rw [assignFlag, if_neg Bool.false_ne_true, getLsbD_clearFlag f p hk]
    by_cases h : k = flagBit f <;> simp [h]
  | true =>
    rw [assignFlag, if_pos rfl, getLsbD_setFlag f p hk]
    by_cases h : k = flagBit f <;> simp [h]

/-- The bit numbers of R25 are those of `flagBit`. -/
theorem flagBit_of_mem_table : ∀ fn ∈ [(Flag.carry, 0), (.zero, 1), (.interruptDisable, 2), (.decimal, 3), (.brk, 4),
    (.unused, 5), (.overflow, 6), (.sign, 7)], fn.2 = flagBit fn.1 := by decide

/-- Settles O31, bit by bit: each pair of the statement is a flag with its `flagBit`. -/
theorem flagUnitTouchesOneBit : Obligations.FlagUnitTouchesOneBit := by
  unfold Obligations.FlagUnitTouchesOneBit
  rintro ⟨f, n⟩ hfn p b
  obtain rfl : n = flagBit f := flagBit_of_mem_table _ hfn
  exact ⟨rfl, isSet_eq_getLsbD f p, rfl, rfl, fun k hk =>
    ⟨getLsbD_setFlag f p hk, getLsbD_clearFlag f p hk, getLsbD_assignFlag f b p hk⟩⟩

/-! ## What an operation writes of P -/

section Writers

variable {f : Flag} {s : State}

/-- A flag that `mn` is not listed for is not a flag that it is listed for. -/
theorem ne_of_notMem_table {table : Flag → List Mnemonic} {mn : Mnemonic} {g : Flag} (h : mn ∉ table f)
    (hg : mn ∈ table g) : f ≠ g :=
  fun e => h (e ▸ hg)

theorem notMem_of_notMem_flagWriters {mn : Mnemonic} {fs : List Flag} (h : mn ∉ flagWriters f)
    (hfs : ∀ g ∈ fs, mn ∈ flagWriters g) : f ∉ fs :=
  fun hf => h (hfs f hf)

theorem flag_writeZN (hf : f ∉ [Flag.zero, .sign]) (v : Byte) : (s.writeZN v).flag f = s.flag f :=
  isSet_computeFlags_of_notMem _ _ _ _ _ _ hf

theorem flag_assign {g : Flag} (hf : f ≠ g) (b : Bool) : (s.assign g b).flag f = s.flag f := by
  simp [State.flag, hf]

theorem flag_addToA (hf : f ∉ [Flag.carry, .zero, .overflow, .sign]) (b : Byte) :
    (addToA b s).flag f = s.flag f :=
  isSet_computeFlags_of_notMem _ _ _ _ _ _ hf

theorem flag_compareWith (hf : f ∉ [Flag.carry, .zero, .sign]) (g m : Byte) :
    (compareWith g m s).flag f = s.flag f :=
  isSet_computeFlags_of_notMem _ _ _ _ _ _ hf

theorem flag_shiftOp (hf : f ∉ [Flag.carry, .zero, .sign]) (ea : Option Word) (r : Byte → Byte) (out : Byte → Bool) :
    (shiftOp ea r out s).flag f = s.flag f := by
  obtain ⟨hc, hzn⟩ := List.ne_and_not_mem_of_not_mem_cons hf
  cases ea with
  | none => exact (flag_writeZN hzn _).trans (flag_assign hc _)
  | some addr => exact (flag_writeZN hzn _).trans (flag_assign hc _)

theorem flag_branchOn (g : Flag) (b : Bool) (off : Int) : (branchOn g b off s).flag f = s.flag f := by
  rw [branchOn_eq]
  rfl

theorem flag_bitTest (hf : f ∉ [Flag.zero, .sign, .overflow]) (m : EaMode) : (bitTest m s).flag f = s.flag f := by
  simp only [List.mem_cons, List.not_mem_nil, or_false, not_or] at hf
  obtain ⟨hz, hn, hv⟩ := hf
  exact (flag_assign hv _).trans ((flag_assign hn _).trans (flag_assign hz _))

theorem flag_trapEntry (hf : f ∉ [Flag.brk, .interruptDisable]) : s.trapEntry.flag f = s.flag f := by
  simp only [List.mem_cons, List.not_mem_nil, or_false, not_or] at hf
  simp [State.flag, hf]

theorem flag_onAddress {op : EaMode → State → State} (h : ∀ m, (op m s).flag f = s.flag f) (o : Operand) :
    (onAddress op o s).flag f = s.flag f := by
  rcases o with _ | _ | m
  · rfl
  · rfl
  · exact h m

theorem flag_onOffset {op : Int → State → State} (h : ∀ off, (op off s).flag f = s.flag f) (o : Operand) :
    (onOffset op o s).flag f = s.flag f := by
  unfold onOffset
  split
  · exact h _
  · rfl

/-- A flag is left as it was by every mnemonic not listed as its writer, on any operand. -/
theorem flag_effect_of_notMem_flagWriters {mn : Mnemonic} (h : mn ∉ flagWriters f) (o : Operand) :
    (effect mn o s).flag f = s.flag f := by
  cases mn with
  | adc | sbc =>
    refine flag_onAddress (fun _ => ?_) o
    exact flag_addToA (notMem_of_notMem_flagWriters h (by decide)) _
  | cmp | cpx | cpy =>
    refine flag_onAddress (fun _ => ?_) o
    exact flag_compareWith (notMem_of_notMem_flagWriters h (by decide)) _ _
  | and | ora | eor | inc | dec | lda | ldx | ldy =>
    refine flag_onAddress (fun _ => ?_) o
    exact flag_writeZN (notMem_of_notMem_flagWriters h (by decide)) _
  | bit =>
    exact flag_onAddress (fun _ => flag_bitTest (notMem_of_notMem_flagWriters h (by decide)) _) o
  | asl | lsr | rol | ror =>
    exact flag_shiftOp (s := s) (notMem_of_notMem_flagWriters h (by decide)) (targetOf o s) _ _
  | inx | iny | dex | dey | tax | tay | txa | tya | tsx | pla =>
    exact flag_writeZN (notMem_of_notMem_flagWriters h (by decide)) _
  | bpl | bmi | bvc | bvs | bcc | bcs | bne | beq =>
    exact flag_onOffset (fun _ => flag_branchOn _ _ _) o
  | clc | sec | cli | sei | clv | cld | sed =>
    exact flag_assign (ne_of_notMem_table h (by decide)) _
  | brk => exact flag_trapEntry (notMem_of_notMem_flagWriters h (by decide))
  | plp | rti => exact absurd (by cases f <;> decide) h
  | sta | stx | sty | jmp | jsr => exact flag_onAddress (fun _ => rfl) o
  | txs | pha | php | rts | nop => rfl

end Writers

/-! ## What an operation reads of P

A state that differs from `s` in flag `f` alone is `s.setP q` for some `q`. An operation that reads nothing of P but what
it recomputes leads from `s` and from `s.setP q` to two states that again differ in P alone, by definition of the
operation; what is left to show is that the two status bytes still agree outside `f`. -/

/-- Two status bytes that differ at most in flag `f`. -/
def SameBut (f : Flag) (p q : Byte) : Prop := ∀ g, g ≠ f → isSet g q = isSet g p

section Readers

variable {f : Flag} {p q : Byte} {s s' : State}

protected theorem SameBut.refl (f : Flag) (p : Byte) : SameBut f p p := fun _ _ => rfl

protected theorem SameBut.assignFlag (h : SameBut f p q) (g : Flag) (b : Bool) :
    SameBut f (assignFlag g b p) (assignFlag g b q) := by
  intro k hk
  rw [isSet_assignFlag, isSet_assignFlag, h k hk]

protected theorem SameBut.ite_assignFlag (h : SameBut f p q) (c : Prop) [Decidable c] (g : Flag) (b : Bool) :
    SameBut f (if c then assignFlag g b p else p) (if c then assignFlag g b q else q) := by
  split
  · exact h.assignFlag g b
  · exact h

protected theorem SameBut.computeFlags (h : SameBut f p q) (mask : List Flag) (t : Nat) (a b : Byte) :
    SameBut f (computeFlags mask t a b p) (computeFlags mask t a b q) := by
  unfold Machine.computeFlags
  exact (((h.ite_assignFlag _ _ _).ite_assignFlag _ _ _).ite_assignFlag _ _ _).ite_assignFlag _ _ _

protected theorem SameBut.setZN (h : SameBut f p q) (v : Byte) : SameBut f (setZN v p) (setZN v q) :=
  h.computeFlags _ _ _ _

/-- Break and Unused do not show in the pushed copy of P. -/
protected theorem SameBut.pushedStatus_eq (h : SameBut f p q) (hf : f = .brk ∨ f = .unused) :
    pushedStatus q = pushedStatus p := by
  apply status_ext
  intro g
  by_cases hg : g = f
  · rcases hf with rfl | rfl <;> simp [hg]
  · simp [h g hg]

/-- The pushed copy of P is read of every flag but Break and Unused, which it forces to 1 (R26). -/
theorem brk_or_unused_of_notMem_flagReaders {mn : Mnemonic} (h : mn ∉ flagReaders f) (hmn : mn = .php ∨ mn = .brk) :
    f = .brk ∨ f = .unused := by
  rcases hmn with rfl | rfl <;> revert h <;> cases f <;> decide

theorem equalBut_setP (h : SameBut f s.p q) : EqualBut f s (s.setP q) :=
  ⟨rfl, rfl, rfl, rfl, rfl, rfl, rfl, h⟩

/-- Two states that differ at most in `f` differ at most in P, and there at most in `f`. -/
theorem exists_setP_of_equalBut (h : EqualBut f s s') : ∃ q, s' = s.setP q ∧ SameBut f s.p q := by
  obtain ⟨ha, hx, hy, hsp, hpc, hmem, hcfg, hp⟩ := h
  refine ⟨s'.p, ?_, hp⟩
  cases s
  cases s'
  subst ha hx hy hsp hpc hmem hcfg
  rfl

theorem flag_setP_of_ne (h : SameBut f s.p q) {g : Flag} (hg : f ≠ g) : (s.setP q).flag g = s.flag g :=
  h g hg.symm

theorem carryIn_setP (h : SameBut f s.p q) (hf : f ≠ .carry) : (s.setP q).carryIn = s.carryIn :=
  congrArg Bool.toNat (flag_setP_of_ne h hf)

theorem equalBut_onAddress {op : EaMode → State → State} (h : SameBut f s.p q)
    (hop : ∀ m, EqualBut f (op m s) (op m (s.setP q))) (o : Operand) :
    EqualBut f (onAddress op o s) (onAddress op o (s.setP q)) := by
  rcases o with _ | _ | m
  · exact equalBut_setP h
  · exact equalBut_setP h
  · exact hop m

theorem equalBut_onOffset {op : Int → State → State} (h : SameBut f s.p q)
    (hop : ∀ off, EqualBut f (op off s) (op off (s.setP q))) (o : Operand) :
    EqualBut f (onOffset op o s) (onOffset op o (s.setP q)) := by
  unfold onOffset
  split
  · exact hop _
  · exact equalBut_setP h

theorem equalBut_addToA (h : SameBut f s.p q) (hf : f ≠ .carry) (b : Byte) :
    EqualBut f (addToA b s) (addToA b (s.setP q)) := by
  rw [addToA_eq, addToA_eq, carryIn_setP h hf]
  exact equalBut_setP (h.computeFlags _ _ _ _)

theorem equalBut_shiftOp (h : SameBut f s.p q) (ea : Option Word) (r : Byte → Byte) (out : Byte → Bool) :
    EqualBut f (shiftOp ea r out s) (shiftOp ea r out (s.setP q)) := by
  cases ea with
  | none => exact equalBut_setP ((h.assignFlag _ _).setZN _)
  | some addr => exact equalBut_setP ((h.assignFlag _ _).setZN _)

theorem equalBut_rol (h : SameBut f s.p q) (hf : f ≠ .carry) (ea : Option Word) :
    EqualBut f (rol ea s) (rol ea (s.setP q)) := by
  rw [rol, rol, carryIn_setP h hf]
  exact equalBut_shiftOp h _ _ _

theorem equalBut_ror (h : SameBut f s.p q) (hf : f ≠ .carry) (ea : Option Word) :
    EqualBut f (ror ea s) (ror ea (s.setP q)) := by
  rw [ror, ror, carryIn_setP h hf]
  exact equalBut_shiftOp h _ _ _

theorem equalBut_branchOn (h : SameBut f s.p q) {g : Flag} (hf : f ≠ g) (b : Bool) (off : Int) :
    EqualBut f (branchOn g b off s) (branchOn g b off (s.setP q)) := by
  rw [branchOn_eq, branchOn_eq, flag_setP_of_ne h hf]
  exact equalBut_setP h

theorem equalBut_bitTest (h : SameBut f s.p q) (m : EaMode) :
    EqualBut f (bitTest m s) (bitTest m (s.setP q)) :=
  equalBut_setP (((h.assignFlag _ _).assignFlag _ _).assignFlag _ _)

theorem equalBut_push8_pushedStatus (h : SameBut f s.p q) (hf : f = .brk ∨ f = .unused) :
    EqualBut f (s.push8 (pushedStatus s.p)) ((s.setP q).push8 (pushedStatus (s.setP q).p)) := by
  rw [setP_p, h.pushedStatus_eq hf]
  exact equalBut_setP h

/-- Trap entry lets P reach memory by the pushed copy alone. -/
theorem trapEntry_setP (hq : pushedStatus q = pushedStatus s.p) :
    (s.setP q).trapEntry = s.trapEntry.setP (assignFlag .interruptDisable true (assignFlag .brk true q)) := by
  have hsaved : (s.setP q).trapSaved =
      s.trapSaved.setP (assignFlag .interruptDisable true (assignFlag .brk true q)) := by
    rw [State.trapSaved, State.trapSaved, setP_p, hq]
    rfl
  rw [State.trapEntry, hsaved]
  rfl

theorem equalBut_trapEntry (h : SameBut f s.p q) (hf : f = .brk ∨ f = .unused) :
    EqualBut f s.trapEntry (s.setP q).trapEntry := by
  rw [trapEntry_setP (h.pushedStatus_eq hf)]
  apply equalBut_setP
  rw [trapEntry_p, trapSaved_p]
  exact (h.assignFlag _ _).assignFlag _ _

/-- No mnemonic that is not listed as a reader of `f` lets the value of `f` reach anything but `f` itself. -/
theorem equalBut_effect_of_notMem_flagReaders {mn : Mnemonic} (hmn : mn ∉ flagReaders f) (h : SameBut f s.p q)
    (o : Operand) : EqualBut f (effect mn o s) (effect mn o (s.setP q)) := by
  cases mn with
  | adc | sbc =>
    exact equalBut_onAddress h (fun _ => equalBut_addToA h (ne_of_notMem_table hmn (by decide)) _) o
  | cmp | cpx | cpy =>
    refine equalBut_onAddress h (fun _ => ?_) o
    exact equalBut_setP (h.computeFlags _ _ _ _)
  | and | ora | eor | inc | dec | lda | ldx | ldy =>
    refine equalBut_onAddress h (fun _ => ?_) o
    exact equalBut_setP (h.setZN _)
  | bit => exact equalBut_onAddress h (equalBut_bitTest h) o
  | asl | lsr => exact equalBut_shiftOp h _ _ _
  | rol => exact equalBut_rol h (ne_of_notMem_table hmn (by decide)) _
  | ror => exact equalBut_ror h (ne_of_notMem_table hmn (by decide)) _
  | inx | iny | dex | dey | tax | tay | txa | tya | tsx | pla => exact equalBut_setP (h.setZN _)
  | bpl | bmi | bvc | bvs | bcc | bcs | bne | beq =>
    exact equalBut_onOffset h (equalBut_branchOn h (ne_of_notMem_table hmn (by decide)) _) o
  | clc | sec | cli | sei | clv | cld | sed => exact equalBut_setP (h.assignFlag _ _)
  | php => exact equalBut_push8_pushedStatus h (brk_or_unused_of_notMem_flagReaders hmn (.inl rfl))
  | brk => exact equalBut_trapEntry h (brk_or_unused_of_notMem_flagReaders hmn (.inr rfl))
  | plp | rti => exact equalBut_setP (SameBut.refl _ _)
  | sta | stx | sty | jmp | jsr =>
    refine equalBut_onAddress h (fun _ => ?_) o
    exact equalBut_setP h
  | txs | pha | rts | nop => exact equalBut_setP h

end Readers

/-! ## The flag ALU on the mask {Zero} (10_state.md R27) -/

theorem isSet_computeFlags_zero_mask (a b p : Byte) :
    isSet .zero (computeFlags [.zero] 0 a b p) = true ∧
      ∀ f, f ≠ .zero → isSet f (computeFlags [.zero] 0 a b p) = isSet f p := by
  refine ⟨isSet_computeFlags_zero _ _ _ _ _ (by decide), fun f hf => ?_⟩
  exact isSet_computeFlags_of_notMem _ _ _ _ _ _ (by simpa using hf)

/-- Settles O13, mnemonic by mnemonic: what an effect writes of P, and that P reaches nothing else of it. -/
theorem flagsAreWrittenAndReadOnlyWhereListed : Obligations.FlagsAreWrittenAndReadOnlyWhereListed := by
  unfold Obligations.FlagsAreWrittenAndReadOnlyWhereListed
  refine ⟨fun f i s t ht hw => ?_, fun f i s s' hs hr => ?_, isSet_computeFlags_zero_mask⟩
  · obtain rfl := Host.Outcome.next.inj ((exec_eq_effect i s).symm.trans ht)
    exact flag_effect_of_notMem_flagWriters hw _
  · obtain ⟨q, rfl, hq⟩ := exists_setP_of_equalBut hs
    exact ⟨_, _, exec_eq_effect i s, exec_eq_effect i _, equalBut_effect_of_notMem_flagReaders hr hq _⟩

end Sys2Proof.Proofs
end


section
/-! Proofs of the family 20_memory.md: the memory port (O17, O18, O19, O20) and the stack primitives (O22). -/

namespace Sys2Proof.Proofs

open Sys2Proof.Machine Sys2Proof.Terms Sys2Proof.Laws

/-! ## The two mirrored ranges of `fold` (20_memory.md R51) -/

section Fold

variable (pm : Bool) {a : Word}

theorem toNat_fold_of_ram (h : a.toNat ≤ 0x1FFF) : (fold pm a).toNat = a.toNat % 0x800 := by
  rw [fold, if_pos ⟨Nat.zero_le _, h⟩, BitVec.toNat_and]
  exact Nat.and_two_pow_sub_one_eq_mod _ 11

theorem fold_of_io (h : 0x2000 ≤ a.toNat) (h' : a.toNat ≤ 0x3FFF) :
    fold pm a = 0x2000#16 + (a &&& 0x0007#16) := by
  rw [fold, if_neg (by omega), if_pos ⟨h, h'⟩]

theorem toNat_ioAddr (a : Word) : (0x2000#16 + (a &&& 0x0007#16)).toNat = 0x2000 + a.toNat % 8 := by
  have hand : (a &&& 0x0007#16).toNat = a.toNat % 8 := Nat.and_two_pow_sub_one_eq_mod _ 3
  rw [BitVec.toNat_add, hand, BitVec.toNat_ofNat]
  omega

theorem toNat_fold_of_io (h : 0x2000 ≤ a.toNat) (h' : a.toNat ≤ 0x3FFF) :
    (fold pm a).toNat = 0x2000 + a.toNat % 8 := by
  rw [fold_of_io pm h h', toNat_ioAddr]

/-- The eight I/O cells are all that the I/O range reaches, and each is its own folded address. -/
theorem fold_fold_of_io (h : 0x2000 ≤ a.toNat) (h' : a.toNat ≤ 0x3FFF) : fold pm (fold pm a) = fold pm a := by
  have hf := toNat_fold_of_io pm h h'
  apply BitVec.eq_of_toNat_eq
  rw [toNat_fold_of_io pm (a := fold pm a) (by omega) (by omega)]
  omega

/-- Below 0x2000 the bits from 11 on select a mirror of the same cell, so the folded address does not depend on them. -/
theorem fold_xor_of_ram {d : Word} (h : a.toNat ≤ 0x1FFF) (hd : d.toNat ≤ 0x1FFF) (hlow : d.toNat % 0x800 = 0) :
    fold pm (a ^^^ d) = fold pm a := by
  have hlt : a.toNat ^^^ d.toNat < 2 ^ 13 := Nat.xor_lt_two_pow (by omega) (by omega)
  have hle : (a ^^^ d).toNat ≤ 0x1FFF := by
    rw [BitVec.toNat_xor]
    omega
  apply BitVec.eq_of_toNat_eq
  calc (fold pm (a ^^^ d)).toNat
      = (a.toNat ^^^ d.toNat) % 2 ^ 11 := by rw [toNat_fold_of_ram pm hle, BitVec.toNat_xor]
    _ = a.toNat % 2 ^ 11 ^^^ d.toNat % 2 ^ 11 := Nat.xor_mod_two_pow
    _ = a.toNat % 0x800 := by rw [hlow, Nat.xor_zero]
    _ = (fold pm a).toNat := (toNat_fold_of_ram pm h).symm

end Fold

/-! ## The memory port (20_memory.md R52 to R56) -/

section Port

variable (s : State)

/-- The byte an address reads depends on its folded address alone. -/
theorem get_eq_of_fold_eq {a b : Word} (h : fold s.cfg.prgMirror b = fold s.cfg.prgMirror a) : s.get b = s.get a :=
  congrArg (fun w : Word => s.mem.readCell w.toNat) h

theorem get_set_of_alias {a b : Word} (v : Byte) (h : fold s.cfg.prgMirror b = fold s.cfg.prgMirror a) :
    (s.set a v).get b = v := by
  rw [get_set, if_pos h]

theorem get_set_of_ne {a b : Word} (v : Byte) (h : fold s.cfg.prgMirror b ≠ fold s.cfg.prgMirror a) :
    (s.set a v).get b = s.get b := by
  rw [get_set, if_neg h]

/-- What a write through the port does to every cell of the backing array. -/
theorem readCell_set (a : Word) (v : Byte) (k : Nat) :
    (s.set a v).mem.readCell k = if k = (fold s.cfg.prgMirror a).toNat then v else s.mem.readCell k :=
  readCell_writeCell _ _ _ _

theorem toNat_get16 (a : Word) : (s.get16 a).toNat = (s.get a).toNat + 256 * (s.get (a + 1#16)).toNat := by
  rw [get16_eq, toNat_pair]
  omega

theorem length_dump : s.dump.length = 0x10000 := by
  rw [State.dump, List.length_map, List.length_range]

theorem getElem?_dump (a : Word) : s.dump[a.toNat]? = some (s.get a) := by
  rw [State.dump, List.getElem?_map, List.getElem?_range a.isLt, Option.map_some, BitVec.ofNat_toNat,
    BitVec.setWidth_eq]

end Port

/-- Settles O17: the write by `readCell_set`, the registers and the configuration by the laws of `set`. -/
theorem getAndSetAccessTheFoldedCell : Obligations.GetAndSetAccessTheFoldedCell := by
  unfold Obligations.GetAndSetAccessTheFoldedCell
  intro s addr v
  refine ⟨rfl, ?_, fun k hk => ?_, set_a s addr v, set_x s addr v, set_y s addr v, set_sp s addr v, set_pc s addr v,
    set_p s addr v, set_cfg s addr v⟩
  · rw [readCell_set, if_pos rfl]
  · rw [readCell_set, if_neg hk]

/-- Settles O18: a read goes by the folded address, and the addresses of the source's checks fold alike. -/
theorem aliasesOfACellAreConsistent : Obligations.AliasesOfACellAreConsistent := by
  unfold Obligations.AliasesOfACellAreConsistent
  refine ⟨fun s a b v => ⟨get_set_of_alias s v, get_set_of_ne s v, get_set_of_alias s v rfl⟩, fun s a h => ?_,
    fun s a h h' => ?_⟩
  · have mirror (d : Word) (hd : d.toNat ≤ 0x1FFF) (hlow : d.toNat % 0x800 = 0) : s.get a = s.get (a ^^^ d) :=
      (get_eq_of_fold_eq s (fold_xor_of_ram _ h hd hlow)).symm
    exact ⟨mirror _ (by decide) (by decide), mirror _ (by decide) (by decide), mirror _ (by decide) (by decide)⟩
  · rw [← fold_of_io s.cfg.prgMirror h h']
    exact (get_eq_of_fold_eq s (fold_fold_of_io _ h h')).symm

/-- Settles O19: `toNat_get16`, and `get16_eq` at the three named addresses. -/
theorem sixteenBitReadsAreLittleEndian : Obligations.SixteenBitReadsAreLittleEndian := by
  unfold Obligations.SixteenBitReadsAreLittleEndian
  exact ⟨toNat_get16, fun s => ⟨get16_eq s 0xFFFF#16, get16_eq s 0x00FF#16, get16_eq s 0x02FF#16⟩⟩

/-- Settles O20: `getElem?_dump`, and `get` is by definition the read of the folded cell. -/
theorem dumpResolvesEveryAddress : Obligations.DumpResolvesEveryAddress := by
  unfold Obligations.DumpResolvesEveryAddress
  exact fun s => ⟨length_dump s, fun a => ⟨getElem?_dump s a, getElem?_dump s a⟩⟩

/-! ## Frames

The frame of a compound operation is composed, by `frame_trans`, of the frames of the writes it is made of. -/

section Frames

variable {s t u : State}

theorem reg_same_trans {r : Reg} (h : r.Same s t) (h' : r.Same t u) : r.Same s u := by
  cases r <;> exact Eq.trans h' h

theorem frame_trans {rs rs' : List Reg} {fs fs' : List Flag} {ws ws' : List Word}
    (h : Frame rs fs ws s t) (h' : Frame rs' fs' ws' t u) : Frame (rs ++ rs') (fs ++ fs') (ws ++ ws') s u := by
  obtain ⟨hreg, hflag, hget, hcfg⟩ := h
  obtain ⟨hreg', hflag', hget', hcfg'⟩ := h'
  rw [hcfg] at hget'
  simp only [Frame, List.mem_append, not_or]
  refine ⟨fun r hr => reg_same_trans (hreg r hr.1) (hreg' r hr.2),
    fun f hf => (hflag' f hf.2).trans (hflag f hf.1), fun b hb => ?_, hcfg'.trans hcfg⟩
  exact (hget' b fun a ha => hb a (.inr ha)).trans (hget b fun a ha => hb a (.inl ha))

theorem frame_set (s : State) (a : Word) (v : Byte) : Frame [] [] [a] s (s.set a v) := by
  refine ⟨fun r _ => ?_, fun _ _ => rfl, fun b hb => ?_, set_cfg s a v⟩
  · cases r <;> rfl
  · exact get_set_of_ne s v (hb a (List.mem_singleton_self a))

theorem frame_setSP (s : State) (v : Byte) : Frame [.sp] [] [] s (s.setSP v) := by
  refine ⟨fun r hr => ?_, fun _ _ => rfl, fun b _ => setSP_get s v b, setSP_cfg s v⟩
  cases r with
  | sp => exact absurd (List.mem_singleton_self _) hr
  | a | x | y | pc => rfl

end Frames

/-! ## The stack primitives (20_memory.md R69) -/

section Stack

variable (s : State)

/-- The obligations' name for the model's stack address. -/
theorem stackByte_eq_stackAddr (sp : Byte) : stackByte sp = stackAddr sp := rfl

theorem toNat_stackByte (sp : Byte) : (stackByte sp).toNat = 0x100 + sp.toNat := toNat_stackAddr sp

theorem reads_push8 (v : Byte) : Reads (s.push8 v) (stackByte s.sp) v := by
  intro b hb
  rw [push8_cfg, stackByte_eq_stackAddr, fold_stackAddr] at hb
  rw [get_push8, if_pos hb]

theorem toNat_push8_sp (v : Byte) : (s.push8 v).sp.toNat = (s.sp.toNat + 255) % 256 := by
  rw [push8_sp, BitVec.toNat_sub, BitVec.toNat_ofNat]
  omega

theorem toNat_popped_sp : s.popped.sp.toNat = (s.sp.toNat + 1) % 256 := by
  rw [popped_sp, BitVec.toNat_add, BitVec.toNat_ofNat]

theorem frame_push8 (v : Byte) : Frame [.sp] [] [stackByte s.sp] s (s.push8 v) :=
  frame_trans (frame_set s (stackAddr s.sp) v) (frame_setSP _ (s.sp - 1#8))

theorem frame_popped : Frame [.sp] [] [] s s.popped := frame_setSP s _

end Stack

/-- Settles O22: what push and pull do to the stack byte, to SP and to the rest of the state, and where the stack
byte lies. -/
theorem pushAndPullUseTheStackPage : Obligations.PushAndPullUseTheStackPage := by
  unfold Obligations.PushAndPullUseTheStackPage
  intro s v
  have hpage := toNat_stackByte s.sp
  exact ⟨reads_push8 s v, toNat_push8_sp s v, frame_push8 s v, toNat_popped_sp s, rfl, frame_popped s, by omega,
    by omega, fold_stackAddr _ s.sp⟩

end Sys2Proof.Proofs
end

section
/-! Proofs of the family 30_encoding.md: the opcode table read by rows (O3), the six steps (O7), and the addressing
modes (O25, O26, O27, O29, O30). -/

namespace Sys2Proof.Proofs

section AllRows

open Sys2Proof.Laws.TableRow

/-- The table's row of every instruction: the lemmas of the 151 constructors together. -/
theorem statement_of_instr : ∀ i, Statement i :=
  Instr.rec adcImm adcZp adcZpx adcAbs adcAbx adcAby adcIzx adcIzy sbcImm sbcZp sbcZpx sbcAbs sbcAbx sbcAby
    sbcIzx sbcIzy andImm andZp andZpx andAbs andAbx andAby andIzx andIzy oraImm oraZp oraZpx oraAbs oraAbx
    oraAby oraIzx oraIzy eorImm eorZp eorZpx eorAbs eorAbx eorAby eorIzx eorIzy aslAcc aslZp aslZpx aslAbs
    aslAbx lsrAcc lsrZp lsrZpx lsrAbs lsrAbx rolAcc rolZp rolZpx rolAbs rolAbx rorAcc rorZp rorZpx rorAbs
    rorAbx cmpImm cmpZp cmpZpx cmpAbs cmpAbx cmpAby cmpIzx cmpIzy cpxImm cpxZp cpxAbs cpyImm cpyZp cpyAbs bpl
    bmi bvc bvs bcc bcs bne beq incZp incZpx incAbs incAbx decZp decZpx decAbs decAbx inx iny dex dey ldaImm
    ldaZp ldaZpx ldaAbs ldaAbx ldaAby ldaIzx ldaIzy ldxImm ldxZp ldxZpy ldxAbs ldxAby ldyImm ldyZp ldyZpx
    ldyAbs ldyAbx staZp staZpx staAbs staAbx staAby staIzx staIzy stxZp stxZpy stxAbs styZp styZpx styAbs tax
    tay txa tya tsx txs pha php pla plp jmpAbs jmpInd jsr rts rti brk nop clc sec cli sei clv cld sed bitZp
    bitAbs

end AllRows

open Sys2Proof.Machine Sys2Proof.Terms Sys2Proof.Laws

/-! ## The rows of the opcode table (30_encoding.md R81, R97, R100) -/

/-- The operand that a mode makes of the two bytes after the opcode byte (R84 to R97). -/
def operandOf : Mode → Byte → Byte → Operand
  | .implied, _, _ => .implied
  | .accumulator, _, _ => .accumulator
  | .immediate, b₁, _ => .at (.immediate b₁)
  | .zeroPage, b₁, _ => .at (.zeroPage b₁)
  | .zeroPageX, b₁, _ => .at (.zeroPageX b₁)
  | .zeroPageY, b₁, _ => .at (.zeroPageY b₁)
  | .absolute, b₁, b₂ => .at (.absolute (pair b₂ b₁))
  | .absoluteX, b₁, b₂ => .at (.absoluteX (pair b₂ b₁))
  | .absoluteY, b₁, b₂ => .at (.absoluteY (pair b₂ b₁))
  | .indirect, b₁, b₂ => .at (.indirect (pair b₂ b₁))
  | .indexedIndirect, b₁, _ => .at (.indexedIndirect b₁)
  | .indirectIndexed, b₁, _ => .at (.indirectIndexed b₁)
  | .relative, b₁, _ => .at (.relative (signedOffset b₁))

@[simp] theorem mode_operandOf (m : Mode) (b₁ b₂ : Byte) : (operandOf m b₁ b₂).mode = m := by
  cases m <;> rfl

/-- Only the Immediate mode makes an immediate operand, and its byte is the first after the opcode (R86). -/
theorem eq_of_operandOf_eq_immediate {m : Mode} {b₁ b₂ d : Byte} (h : operandOf m b₁ b₂ = .at (.immediate d)) :
    m = .immediate ∧ d = b₁ := by
  cases m <;> cases h
  exact ⟨rfl, rfl⟩

/-- What a row builds of the two bytes after the opcode byte, as its descriptor says it; an equation of functions, so
that each group of rows is read off by computation with the two bytes left open. -/
theorem build_of_mem_opcodeTable :
    ∀ r ∈ opcodeTable,
      (fun b₁ b₂ => ((r.build b₁ b₂).opcode, (r.build b₁ b₂).mnemonic, (r.build b₁ b₂).operand)) =
      fun b₁ b₂ => (r.opcode, r.mnemonic, operandOf r.mode b₁ b₂) := by
  simp only [opcodeTable, List.forall_mem_append, and_assoc]
  refine ⟨?_, ?_, ?_, ?_, ?_, ?_, ?_, ?_, ?_, ?_⟩ <;> exact List.map_inj_left.mp rfl

theorem opcode_of_lookupOpcode {op : Byte} {r : OpcodeRow} (h : lookupOpcode op = some r) : r.opcode = op :=
  eq_of_beq (List.find?_some (p := fun q : OpcodeRow => q.opcode == op) h)

section Build

variable {op : Byte} {r : OpcodeRow}

/-- A row's instruction has the row's byte, mnemonic and mode, whatever the two following bytes. -/
theorem build_of_lookupOpcode (h : lookupOpcode op = some r) (b₁ b₂ : Byte) :
    (r.build b₁ b₂).opcode = op ∧ (r.build b₁ b₂).mnemonic = r.mnemonic ∧
      (r.build b₁ b₂).operand = operandOf r.mode b₁ b₂ := by
  have hrow := build_of_mem_opcodeTable r (List.mem_of_find?_eq_some h)
  obtain ⟨hop, hmn, ho⟩ := by simpa only [Prod.mk.injEq] using congrFun (congrFun hrow b₁) b₂
  exact ⟨hop.trans (opcode_of_lookupOpcode h), hmn, ho⟩

theorem length_build (h : lookupOpcode op = some r) (b₁ b₂ : Byte) :
    (r.build b₁ b₂).length = r.mode.length := by
  obtain ⟨-, -, ho⟩ := build_of_lookupOpcode h b₁ b₂
  rw [Instr.length, Instr.mode, ho, mode_operandOf]

end Build

/-- Every instruction has a row: its opcode byte's, with its mnemonic and mode. -/
theorem lookupOpcode_opcode (i : Instr) :
    ∃ r, lookupOpcode i.opcode = some r ∧ r.mnemonic = i.mnemonic ∧ r.mode = i.mode := by
  obtain ⟨r, hr, hmn, hm, -⟩ := statement_of_instr i
  exact ⟨r, hr, hmn, hm⟩

/-- What holds of mnemonic and mode in every row of the table holds in every instruction. -/
theorem forall_instr_of_forall_row {P : Mnemonic → Mode → Prop} (h : ∀ r ∈ opcodeTable, P r.mnemonic r.mode)
    (i : Instr) : P i.mnemonic i.mode := by
  obtain ⟨r, hr, hmn, hm⟩ := lookupOpcode_opcode i
  exact hmn ▸ hm ▸ h r (List.mem_of_find?_eq_some hr)

/-! ## The unimplemented bytes (30_encoding.md R101) -/

/-- The list of R101 and the opcode bytes of the table are together the 256 bytes, each once. -/
theorem perm_range_of_bytes :
    ((unimplementedBytes ++ opcodeTable.map (·.opcode)).map BitVec.toNat).Perm (List.range 256) := by
  have hsort : ((unimplementedBytes ++ opcodeTable.map (·.opcode)).map BitVec.toNat).insertionSort (· ≤ ·) =
      List.range 256 := by decide +kernel
  exact hsort ▸ (List.perm_insertionSort _ _).symm

theorem nodup_bytes : (unimplementedBytes ++ opcodeTable.map (·.opcode)).Nodup :=
  List.Nodup.of_map _ (perm_range_of_bytes.nodup_iff.mpr List.nodup_range)

theorem mem_bytes (op : Byte) : op ∈ unimplementedBytes ++ opcodeTable.map (·.opcode) := by
  have hop : op.toNat ∈ List.range 256 := List.mem_range.mpr op.isLt
  exact (List.mem_map_of_injective fun _ _ => BitVec.eq_of_toNat_eq).mp (perm_range_of_bytes.mem_iff.mpr hop)

theorem lookupOpcode_eq_none_iff (op : Byte) : lookupOpcode op = none ↔ op ∉ opcodeTable.map (·.opcode) := by
  simp [lookupOpcode]

/-- A byte is in the list of R101 exactly when the table has no row for it. -/
theorem mem_unimplementedBytes_iff (op : Byte) : op ∈ unimplementedBytes ↔ lookupOpcode op = none := by
  rw [lookupOpcode_eq_none_iff]
  refine ⟨fun h => List.disjoint_of_nodup_append nodup_bytes h, fun h => ?_⟩
  exact (List.mem_append.mp (mem_bytes op)).resolve_right h

theorem step_of_lookupOpcode_none {s : State} (h : lookupOpcode (s.get s.pc) = none) :
    step s = .fault (.unimplementedOpcode (s.get s.pc) s.pc) :=
  step_of_fetch_none ((fetch_eq_none_iff s).mpr h)

/-- Settles O3: a byte of the list is a byte without a row, and the rest follows from there being no row. -/
theorem unimplementedBytesAreNoInstruction : Obligations.UnimplementedBytesAreNoInstruction := by
  unfold Obligations.UnimplementedBytesAreNoInstruction
  refine ⟨rfl, mem_unimplementedBytes_iff, fun op hop => ?_⟩
  have hnone := (mem_unimplementedBytes_iff op).mp hop
  refine ⟨fun rest => ?_, fun i hi => ?_, fun s hs => ?_⟩
  · rw [decode_cons, hnone]
  · obtain ⟨r, hr, -⟩ := lookupOpcode_opcode i
    rw [hi, hnone] at hr
    cases hr
  · subst hs
    exact step_of_lookupOpcode_none hnone

/-! ## The six steps (30_encoding.md R98) -/

theorem pc_shiftOp (ea : Option Word) (r : Byte → Byte) (out : Byte → Bool) (s : State) :
    (shiftOp ea r out s).pc = s.pc := by
  cases ea <;> rfl

theorem pc_onAddress {op : EaMode → State → State} {s : State} (h : ∀ m, (op m s).pc = s.pc) (o : Operand) :
    (onAddress op o s).pc = s.pc := by
  rcases o with _ | _ | m
  · rfl
  · rfl
  · exact h m

/-- PC is left as it was by every mnemonic not listed as its writer, on any operand (10_state.md R24). -/
theorem pc_effect_of_notMem_pcWriters {mn : Mnemonic} (h : mn ∉ pcWriters) (o : Operand) (s : State) :
    (effect mn o s).pc = s.pc := by
  cases mn with
  | adc | sbc | and | ora | eor | cmp | cpx | cpy | inc | dec | lda | ldx | ldy | sta | stx | sty | bit =>
    exact pc_onAddress (fun _ => rfl) o
  | asl | lsr | rol | ror => exact pc_shiftOp (targetOf o s) _ _ s
  | inx | iny | dex | dey | tax | tay | txa | tya | tsx | txs | pha | php | pla | plp | nop | clc | sec | cli | sei
  | clv | cld | sed => rfl
  | jmp | jsr | rts | rti | brk | bpl | bmi | bvc | bvs | bcc | bcs | bne | beq => exact absurd (by decide) h

/-- A byte with a row is fetched with the two bytes after it as the instruction that the row builds of them. -/
theorem fetch_of_lookupOpcode {s : State} {r : OpcodeRow} (h : lookupOpcode (s.get s.pc) = some r) :
    s.fetch = some (r.build (s.get (s.pc + 1#16)) (s.get (s.pc + 2#16))) :=
  congrArg (Option.map _) h

theorem stepCycles_of_fetch {s : State} {r : OpcodeRow} {i : Instr} (hr : lookupOpcode (s.get s.pc) = some r)
    (hi : s.fetch = some i) : s.stepCycles = some (cycleTotal r i (s.advance i.length)) := by
  rw [State.stepCycles, State.opcodeByte, hr, hi]

theorem stepCycles_of_lookupOpcode_none {s : State} (h : lookupOpcode (s.get s.pc) = none) :
    s.stepCycles = none := by
  rw [State.stepCycles, State.opcodeByte, h]

/-- Settles O7: the fetched instruction is the row's, so its length, its flag mask and whether it writes PC are those
of the row's mode and mnemonic. -/
theorem stepFollowsItsSixSteps : Obligations.StepFollowsItsSixSteps := by
  unfold Obligations.StepFollowsItsSixSteps
  refine fun s => ⟨fun h => ⟨step_of_lookupOpcode_none h, stepCycles_of_lookupOpcode_none h⟩, fun r hr => ?_⟩
  have hfetch := fetch_of_lookupOpcode hr
  have hstep := step_of_fetch hfetch
  have hcycles := stepCycles_of_fetch hr hfetch
  rw [length_build hr] at hstep hcycles
  obtain ⟨-, hmn, -⟩ := build_of_lookupOpcode hr (s.get (s.pc + 1#16)) (s.get (s.pc + 2#16))
  refine ⟨_, _, rfl, exec_eq_effect _ _, hstep.trans (exec_eq_effect _ _), hcycles, fun f hf => ?_, fun hpc => ?_⟩
  · exact flag_effect_of_notMem_flagWriters (hmn ▸ hf) _
  · exact pc_effect_of_notMem_pcWriters (hmn ▸ hpc) _ _

/-! ## The zero page modes (30_encoding.md R87 to R89) -/

theorem toNat_zext16_add (d x : Byte) : (zext16 (d + x)).toNat = (d.toNat + x.toNat) % 256 := by
  rw [toNat_zext16, BitVec.toNat_add]

/-- Settles O25: the index is added to the operand byte before the sum is widened; the table has ZeroPageY with LDX and
STX alone. -/
theorem zeroPageAddressesWrapWithinPageZero : Obligations.ZeroPageAddressesWrapWithinPageZero := by
  unfold Obligations.ZeroPageAddressesWrapWithinPageZero
  intro s d
  refine ⟨toNat_zext16 d, rfl, toNat_zext16_add d s.x, rfl, toNat_zext16_add d s.y, rfl, rfl, rfl, rfl, ?_⟩
  exact forall_instr_of_forall_row (P := fun mn m => m = .zeroPageY → mn = .ldx ∨ mn = .stx) (by decide +kernel)

/-! ## The absolute modes (30_encoding.md R90 to R92) -/

theorem toNat_hi8 (w : Word) : (hi8 w).toNat = w.toNat / 256 := by
  have := w.isLt
  simp only [hi8, BitVec.toNat_setWidth, BitVec.toNat_ushiftRight, Nat.shiftRight_eq_div_pow]
  omega

theorem toNat_add_zext16 (w : Word) (x : Byte) : (w + zext16 x).toNat = (w.toNat + x.toNat) % 65536 := by
  rw [BitVec.toNat_add, toNat_zext16]

/-- Two words are on different pages exactly when their numbers differ above the low 8 bits. -/
theorem hi8_bne_hi8 (v w : Word) : (hi8 v != hi8 w) = decide (v.toNat / 256 ≠ w.toNat / 256) := by
  rw [Bool.eq_iff_iff, bne_iff_ne, decide_eq_true_iff, Ne, ← BitVec.toNat_inj, toNat_hi8, toNat_hi8]

theorem hi8_add_zext16_bne (w : Word) (x : Byte) :
    (hi8 (w + zext16 x) != hi8 w) = decide ((w.toNat + x.toNat) % 65536 / 256 ≠ w.toNat / 256) := by
  rw [hi8_bne_hi8, toNat_add_zext16]

/-- Settles O26: the index is widened before it is added, and a page cross compares the two high bytes. -/
theorem absoluteAddressesAddTheIndexInFull : Obligations.AbsoluteAddressesAddTheIndexInFull := by
  unfold Obligations.AbsoluteAddressesAddTheIndexInFull
  intro s w
  exact ⟨rfl, rfl, toNat_add_zext16 w s.x, hi8_add_zext16_bne w s.x, toNat_add_zext16 w s.y, hi8_add_zext16_bne w s.y,
    rfl, rfl, rfl, ⟨_, exec_eq_effect _ s, rfl⟩, ⟨_, exec_eq_effect _ s, rfl⟩⟩

/-! ## The Indirect mode (30_encoding.md R93) -/

theorem toNat_lo8 (w : Word) : (lo8 w).toNat = w.toNat % 256 := by
  rw [lo8, BitVec.toNat_setWidth]

theorem toNat_samePageNext (w : Word) : (samePageNext w).toNat = w.toNat / 256 * 256 + (w.toNat % 256 + 1) % 256 := by
  rw [samePageNext, toNat_pair, toNat_hi8, BitVec.toNat_add, toNat_lo8, BitVec.toNat_ofNat]

theorem samePageNext_of_ne {w : Word} (h : w.toNat % 256 ≠ 0xFF) : samePageNext w = w + 1#16 := by
  have := w.isLt
  apply BitVec.eq_of_toNat_eq
  rw [toNat_samePageNext, BitVec.toNat_add, BitVec.toNat_ofNat]
  omega

/-- Clearing the low byte of a word leaves the start of its page. -/
theorem and_pageMask (w : Word) : w &&& 0xFF00#16 = pair (hi8 w) 0x00#8 :=
  calc w &&& 0xFF00#16
      = pair (hi8 w) (lo8 w) &&& pair 0xFF#8 0x00#8 := by
        rw [pair_hi8_lo8]
        rfl
    _ = pair (hi8 w &&& 0xFF#8) (lo8 w &&& 0x00#8) := BitVec.and_append
    _ = pair (hi8 w) 0x00#8 := by
        rw [BitVec.and_zero, show hi8 w &&& 0xFF#8 = hi8 w from BitVec.and_allOnes]

theorem samePageNext_of_eq {w : Word} (h : w.toNat % 256 = 0xFF) : samePageNext w = w &&& 0xFF00#16 := by
  have hlo : lo8 w = 0xFF#8 := BitVec.eq_of_toNat_eq ((toNat_lo8 w).trans h)
  rw [and_pageMask, samePageNext, hlo]
  rfl

/-- Settles O27: `samePageNext` is the next address inside a page and the page's start at its end. -/
theorem indirectTakesTheHighByteFromTheSamePage : Obligations.IndirectTakesTheHighByteFromTheSamePage := by
  unfold Obligations.IndirectTakesTheHighByteFromTheSamePage
  intro s w
  have hea : s.ea (.indirect w) = s.get (samePageNext w) ++ s.get w := rfl
  refine ⟨fun h => ?_, fun h => ?_, rfl, rfl, ?_⟩
  · rw [samePageNext_of_ne h] at hea
    exact ⟨hea, hea⟩
  · rw [hea, samePageNext_of_eq h]
  · exact forall_instr_of_forall_row (P := fun mn m => m = .indirect → mn = .jmp) (by decide +kernel)

/-! ## The Relative mode (30_encoding.md R96) -/

/-- A signed offset byte as a 16-bit addend: a byte from 0x80 on stands for itself less 0x100, modulo 2^16. -/
theorem toNat_ofInt_signedOffset (d : Byte) :
    (BitVec.ofInt 16 (signedOffset d)).toNat = if d.toNat < 0x80 then d.toNat else 0xFF00 + d.toNat := by
  have := d.isLt
  rw [BitVec.toNat_ofInt, signedOffset, BitVec.toInt_eq_toNat_cond]
  split <;> split <;> omega

/-- Settles O29: PC advanced by 2 plus the offset as a 16-bit addend; the table has Relative with the branches alone. -/
theorem relativeTargetsCountFromTheNextInstruction : Obligations.RelativeTargetsCountFromTheNextInstruction := by
  unfold Obligations.RelativeTargetsCountFromTheNextInstruction
  refine ⟨fun s d => ⟨?_, rfl⟩, rfl, ?_⟩
  · have hea : (s.advance 2).ea (.relative (signedOffset d)) = s.pc + 2#16 + BitVec.ofInt 16 (signedOffset d) := rfl
    rw [hea, BitVec.toNat_add, BitVec.toNat_add, BitVec.toNat_ofNat, toNat_ofInt_signedOffset, Nat.mod_add_mod]
  · exact forall_instr_of_forall_row
      (P := fun mn m => m = .relative ↔ mn ∈ [.bpl, .bmi, .bvc, .bvs, .bcc, .bcs, .bne, .beq]) (by decide +kernel)

/-! ## The Immediate and the Implied mode (30_encoding.md R84, R86) -/

/-- A fetched instruction's operand is made by its mode of the two bytes after the opcode byte. -/
theorem operand_of_fetch {s : State} {i : Instr} (h : s.fetch = some i) :
    i.operand = operandOf i.mode (s.get (s.pc + 1#16)) (s.get (s.pc + 2#16)) := by
  cases hr : lookupOpcode (s.get s.pc) with
  | none =>
    rw [(fetch_eq_none_iff s).mpr hr] at h
    cases h
  | some r =>
    obtain rfl := Option.some.inj ((fetch_of_lookupOpcode hr).symm.trans h)
    obtain ⟨-, -, ho⟩ := build_of_lookupOpcode hr (s.get (s.pc + 1#16)) (s.get (s.pc + 2#16))
    rw [Instr.mode, ho, mode_operandOf]

theorem eq_implied_of_mode {o : Operand} (h : o.mode = .implied) : o = .implied := by
  rcases o with _ | _ | m
  · rfl
  · cases h
  · cases m <;> cases h

/-- Settles O30: a fetched immediate operand is the byte at `pc0 + 1`, one before the advanced PC. -/
theorem immediateOperandIsTheByteAfterTheOpcode : Obligations.ImmediateOperandIsTheByteAfterTheOpcode := by
  unfold Obligations.ImmediateOperandIsTheByteAfterTheOpcode
  refine ⟨fun s i d hi ho => ?_, fun i hi => ?_⟩
  · obtain ⟨hm, hd⟩ := eq_of_operandOf_eq_immediate ((operand_of_fetch hi).symm.trans ho)
    have hlen : i.length = 2 := congrArg Mode.length hm
    have hea : (s.advance i.length).ea (.immediate d) = s.pc + 1#16 := by
      rw [hlen]
      exact add_sub_assoc ..
    exact ⟨hd, hea, hd, rfl, hlen⟩
  · have ho := eq_implied_of_mode hi
    refine ⟨ho, congrArg Mode.length hi, ?_, fun s => ?_⟩
    · rw [ho, Operand.bytes]
    · rw [ho, State.operandCrossed]

end Sys2Proof.Proofs
end

section
/-! Proofs of the family 40_arithmetic.md: ADC (O33), through what the sum of ADC and SBC does to A and to each flag. -/

namespace Sys2Proof.Proofs

open Sys2Proof.Machine Sys2Proof.Terms Sys2Proof.Laws

/-! ## The forms of a mnemonic (30_encoding.md R100) -/

/-- What the table says of the rows of `mn`: mode, opcode byte, base cycle count and page_penalty. -/
def formsOf (mn : Mnemonic) : List (Mode × Byte × Nat × Bool) :=
  (opcodeTable.filter (·.mnemonic = mn)).map fun r => (r.mode, r.opcode, r.baseCycles, r.pagePenalty)

theorem mem_formsOf {mn : Mnemonic} {f : Mode × Byte × Nat × Bool} :
    f ∈ formsOf mn ↔
      ∃ r ∈ opcodeTable, r.mnemonic = mn ∧ (r.mode, r.opcode, r.baseCycles, r.pagePenalty) = f := by
  simp [formsOf, and_assoc]

/-- A row of the table is the one its opcode byte finds: no two rows share a byte. -/
theorem lookupOpcode_of_mem {r : OpcodeRow} (h : r ∈ opcodeTable) : lookupOpcode r.opcode = some r := by
  have hnodup : (opcodeTable.map (·.opcode)).Nodup := nodup_bytes.of_append_right
  cases hq : lookupOpcode r.opcode with
  | none => exact absurd (List.mem_map_of_mem h) ((lookupOpcode_eq_none_iff _).mp hq)
  | some q =>
    have hmem : q ∈ opcodeTable := List.mem_of_find?_eq_some hq
    rw [List.inj_on_of_nodup_map hnodup hmem h (opcode_of_lookupOpcode hq)]

/-- A mnemonic has exactly the forms of its rows. -/
theorem hasForms_formsOf (mn : Mnemonic) : HasForms mn (formsOf mn) := by
  refine ⟨fun i hi => ?_, fun f hf => ?_⟩
  · obtain ⟨r, hr, hmn, hm⟩ := lookupOpcode_opcode i
    refine ⟨r, hr, hmn.trans hi, mem_formsOf.mpr ⟨r, List.mem_of_find?_eq_some hr, hmn.trans hi, ?_⟩⟩
    rw [hm, opcode_of_lookupOpcode hr]
  · obtain ⟨r, hmem, hmn, rfl⟩ := mem_formsOf.mp hf
    have hr := lookupOpcode_of_mem hmem
    obtain ⟨hop, hmn', ho⟩ := build_of_lookupOpcode hr 0#8 0#8
    refine ⟨r.build 0#8 0#8, r, hmn'.trans hmn, hop.symm ▸ hr, ?_⟩
    rw [hop, Instr.mode, ho, mode_operandOf]

/-! ## The sum of ADC and SBC (10_state.md R29) -/

/-- Bit 8 of a sum of two bytes and a carry is whether the sum reaches 256. -/
theorem testBit_eight_of_lt {t : Nat} (h : t < 512) : t.testBit 8 = decide (256 ≤ t) := by
  rw [Nat.testBit_eq_decide_div_mod_eq]
  apply decide_eq_decide.mpr
  omega

section Sum

variable (b : Byte) (s : State)

theorem addToA_a : (addToA b s).a = BitVec.ofNat 8 (s.a.toNat + b.toNat + (s.flag .carry).toNat) := rfl

theorem carry_addToA :
    (addToA b s).flag .carry = decide (256 ≤ s.a.toNat + b.toNat + (s.flag .carry).toNat) := by
  have hlt : s.a.toNat + b.toNat + (s.flag .carry).toNat < 512 := by
    have := s.a.isLt
    have := b.isLt
    have := Bool.toNat_le (s.flag .carry)
    omega
  exact (isSet_computeFlags_carry _ _ _ _ _ (by decide)).trans (testBit_eight_of_lt hlt)

theorem overflow_addToA : (addToA b s).flag .overflow = overflowOf s.a b (addToA b s).a :=
  isSet_computeFlags_overflow _ _ _ _ _ (by decide)

theorem znOf_addToA : ZNOf (addToA b s).a (addToA b s) :=
  ⟨isSet_computeFlags_zero _ _ _ _ _ (by decide), isSet_computeFlags_sign _ _ _ _ _ (by decide)⟩

theorem frame_addToA : Frame [.a] [.carry, .zero, .overflow, .sign] [] s (addToA b s) := by
  refine ⟨fun r hr => ?_, fun f hf => flag_addToA hf b, fun _ _ => rfl, rfl⟩
  cases r with
  | a => exact absurd (List.mem_singleton_self _) hr
  | x | y | sp | pc => rfl

end Sum

/-! ## ADC (40_arithmetic.md R130) -/

/-- A mnemonic that is not listed as a reader of `f` does the same to everything else when `f` is assigned before. -/
theorem equalBut_effect_assign {mn : Mnemonic} {f : Flag} (hmn : mn ∉ flagReaders f) (o : Operand) (s : State)
    (b : Bool) : EqualBut f (effect mn o s) (effect mn o (s.assign f b)) := by
  refine equalBut_effect_of_notMem_flagReaders hmn (fun g hg => ?_) o
  rw [isSet_assignFlag, if_neg hg]

theorem exec_of_adc {i : Instr} {m : EaMode} (hmn : i.mnemonic = .adc) (ho : i.operand = .at m) (s : State) :
    exec i s = .next (addToA (s.operand m) s) := by
  rw [exec_eq_effect, hmn, ho]
  rfl

/-- Settles O33: ADC is the sum of A and the operand, and Decimal is a flag that ADC is not listed as a reader of. -/
theorem adcAddsMemoryAndCarry : Obligations.AdcAddsMemoryAndCarry := by
  unfold Obligations.AdcAddsMemoryAndCarry
  refine ⟨hasForms_formsOf .adc, fun i m s hmn ho => ?_⟩
  refine ⟨_, exec_of_adc hmn ho s, addToA_a _ s, carry_addToA _ s, overflow_addToA _ s, znOf_addToA _ s,
    frame_addToA _ s, fun b => ⟨_, exec_of_adc hmn ho _, ?_⟩⟩
  obtain ⟨ha, -⟩ := equalBut_effect_assign (mn := .adc) (f := .decimal) (by decide) (.at m) s b
  exact ha

end Sys2Proof.Proofs
end

section
/-! Proofs of the family 41_logical.md: AND, ORA and EOR (O36), through what a write of A and of Zero and Sign leaves
unchanged. -/

namespace Sys2Proof.Proofs

open Sys2Proof.Machine Sys2Proof.Terms Sys2Proof.Laws

/-! ## Completion of an instruction on an effective-address mode -/

theorem exec_of_onAddress {op : EaMode → State → State} {i : Instr} {m : EaMode}
    (hop : effect i.mnemonic = onAddress op) (ho : i.operand = .at m) (s : State) : exec i s = .next (op m s) := by
  rw [exec_eq_effect, hop, ho]
  rfl

/-! ## Writes of A, and of Zero and Sign (00_scope.md R8) -/

section WriteA

variable (v : Byte) (s : State)

theorem frame_setA : Frame [.a] [] [] s (s.setA v) := by
  refine ⟨fun r hr => ?_, fun f _ => setA_flag s v f, fun b _ => setA_get s v b, setA_cfg s v⟩
  cases r with
  | a => exact absurd (List.mem_singleton_self _) hr
  | x | y | sp | pc => rfl

theorem frame_writeZN : Frame [] [.zero, .sign] [] s (s.writeZN v) := by
  refine ⟨fun r _ => ?_, fun f hf => flag_writeZN hf v, fun b _ => writeZN_get s v b, writeZN_cfg s v⟩
  cases r <;> rfl

theorem znOf_writeZN : ZNOf v (s.writeZN v) :=
  ⟨isSet_setZN .zero v s.p, isSet_setZN .sign v s.p⟩

theorem frame_logicalA : Frame [.a] [.zero, .sign] [] s (logicalA v s) :=
  frame_trans (frame_setA v s) (frame_writeZN v (s.setA v))

theorem znOf_logicalA : ZNOf (logicalA v s).a (logicalA v s) :=
  znOf_writeZN v (s.setA v)

end WriteA

/-! ## AND, ORA and EOR (41_logical.md R135 to R137) -/

/-- Settles O36: each of the three is `logicalA` of the byte that its operation makes bit by bit of A and the operand. -/
theorem logicalOperationsWorkBitByBit : Obligations.LogicalOperationsWorkBitByBit := by
  unfold Obligations.LogicalOperationsWorkBitByBit
  refine ⟨hasForms_formsOf .and, hasForms_formsOf .ora, hasForms_formsOf .eor, fun i m s op ho hop => ?_⟩
  rcases hop with ⟨hmn, rfl⟩ | ⟨hmn, rfl⟩ | ⟨hmn, rfl⟩
  · exact ⟨andA m s, exec_of_onAddress (congrArg effect hmn) ho s, fun _ _ => BitVec.getLsbD_and,
      znOf_logicalA _ s, frame_logicalA _ s⟩
  · exact ⟨oraA m s, exec_of_onAddress (congrArg effect hmn) ho s, fun _ _ => BitVec.getLsbD_or,
      znOf_logicalA _ s, frame_logicalA _ s⟩
  · exact ⟨eorA m s, exec_of_onAddress (congrArg effect hmn) ho s, fun _ _ => BitVec.getLsbD_xor,
      znOf_logicalA _ s, frame_logicalA _ s⟩

end Sys2Proof.Proofs
end

section
/-! Proofs of the family 42_shifts_rotates.md: ASL and ROL (O37), LSR and ROR (O38), through what the shared `shiftOp`
does to the operand, to the flags and to the rest of the state. -/

namespace Sys2Proof.Proofs

open Sys2Proof.Machine Sys2Proof.Terms Sys2Proof.Laws

/-! ## What a shift does to the state (30_encoding.md R105) -/

theorem frame_assign (f : Flag) (b : Bool) (s : State) : Frame [] [f] [] s (s.assign f b) := by
  refine ⟨fun r _ => ?_, fun g hg => flag_assign (List.ne_of_not_mem_cons hg) b, fun a _ => assign_get s f b a,
    assign_cfg s f b⟩
  cases r <;> rfl

section ShiftOp

variable (f : Byte → Byte) (out : Byte → Bool) (ea : Option Word) (addr : Word) (s : State)

theorem carry_shiftOp : (shiftOp ea f out s).flag .carry = out (s.readOp ea) := by
  have hassign : isSet .carry (assignFlag .carry (out (s.readOp ea)) s.p) = out (s.readOp ea) := by
    rw [isSet_assignFlag, if_pos rfl]
  cases ea with
  | none => exact (flag_writeZN (by decide) _).trans hassign
  | some addr => exact (flag_writeZN (by decide) _).trans hassign

theorem znOf_shiftOp : ZNOf (f (s.readOp ea)) (shiftOp ea f out s) := znOf_writeZN _ _

theorem frame_shiftOp_none : Frame [.a] [.carry, .zero, .sign] [] s (shiftOp none f out s) :=
  frame_trans (frame_assign .carry _ s) (frame_trans (frame_setA _ _) (frame_writeZN _ _))

theorem frame_shiftOp_some : Frame [] [.carry, .zero, .sign] [addr] s (shiftOp (some addr) f out s) :=
  frame_trans (frame_assign .carry _ s) (frame_trans (frame_set _ addr _) (frame_writeZN _ _))

/-- The byte at the effective address and at its aliases is the result. -/
theorem reads_shiftOp_some : Reads (shiftOp (some addr) f out s) addr (f (s.get addr)) :=
  fun _ hb => get_set_of_alias s _ hb

end ShiftOp

/-! ## From `shiftOp` to the two kinds of operand -/

/-- No shift or rotate has an Implied form. -/
theorem operand_ne_implied_of_shift {i : Instr} (h : i.mnemonic ∈ [.asl, .lsr, .rol, .ror]) : i.operand ≠ .implied := by
  have hmode := forall_instr_of_forall_row
    (P := fun mn m => mn ∈ [Mnemonic.asl, .lsr, .rol, .ror] → m ≠ .implied) (by decide +kernel) i h
  exact fun ho => hmode (congrArg Operand.mode ho)

section Replaces

variable {i : Instr} {s : State} {f : Byte → Byte} {out : Byte → Bool}

theorem exec_of_shiftOp {mn : Mnemonic} (hi : i.mnemonic = mn)
    (hop : ∀ o, effect mn o s = shiftOp (targetOf o s) f out s) :
    exec i s = .next (shiftOp (targetOf i.operand s) f out s) := by
  rw [exec_eq_effect, hi, hop]

/-- A shift or rotate whose effect is `shiftOp` on every operand replaces its operand. -/
theorem replacesOperand_of_shiftOp {mn : Mnemonic} (hi : i.mnemonic = mn) (hmn : mn ∈ [.asl, .lsr, .rol, .ror])
    (hop : ∀ o, effect mn o s = shiftOp (targetOf o s) f out s) : ReplacesOperand i s f out := by
  have hexec := exec_of_shiftOp hi hop
  refine ⟨fun hacc => ?_, fun m hm => ?_, operand_ne_implied_of_shift (hi ▸ hmn)⟩
  · rw [hacc] at hexec
    exact ⟨_, hexec, rfl, carry_shiftOp f out none s, znOf_shiftOp f out none s, frame_shiftOp_none f out s⟩
  · rw [hm] at hexec
    exact ⟨_, hexec, reads_shiftOp_some f out _ s, carry_shiftOp f out _ s, znOf_shiftOp f out _ s,
      frame_shiftOp_some f out _ s⟩

/-- Where bit 7 of the result does not depend on the operand, Sign after the instruction is that bit. -/
theorem sign_of_shiftOp {mn : Mnemonic} (hi : i.mnemonic = mn)
    (hop : ∀ o, effect mn o s = shiftOp (targetOf o s) f out s) {b : Bool} (hf : ∀ v, (f v).getLsbD 7 = b) {t : State}
    (ht : exec i s = .next t) : t.flag .sign = b := by
  obtain rfl := Host.Outcome.next.inj ((exec_of_shiftOp hi hop).symm.trans ht)
  obtain ⟨-, hsign⟩ := znOf_shiftOp f out (targetOf i.operand s) s
  exact hsign.trans (hf _)

end Replaces

/-! ## The four operations as arithmetic on the operand (42_shifts_rotates.md R140 to R143) -/

section Arithmetic

variable (v : Byte) (c : Bool)

theorem getLsbD_seven_eq_decide : v.getLsbD 7 = decide (128 ≤ v.toNat) := BitVec.msb_eq_decide v

theorem getLsbD_zero_eq_decide : v.getLsbD 0 = decide (v.toNat % 2 = 1) := Nat.testBit_zero _

theorem shiftLeft_one_eq_ofNat : v <<< 1 = BitVec.ofNat 8 (2 * v.toNat) := by
  apply BitVec.eq_of_toNat_eq
  rw [BitVec.toNat_shiftLeft, BitVec.toNat_ofNat, Nat.shiftLeft_eq, Nat.mul_comm]

theorem shiftRight_one_eq_ofNat : v >>> 1 = BitVec.ofNat 8 (v.toNat / 2) := by
  have := v.isLt
  apply BitVec.eq_of_toNat_eq
  rw [BitVec.toNat_ushiftRight, BitVec.toNat_ofNat, Nat.shiftRight_eq_div_pow]
  omega

/-- The carry in as a byte has the carry at bit 0 and nothing above it. -/
theorem getLsbD_ofNat_carry (k : Nat) : (BitVec.ofNat 8 c.toNat).getLsbD k = (decide (k = 0) && c) := by
  rw [BitVec.getLsbD_ofNat, Nat.testBit_bool_toNat]
  by_cases hk : k = 0 <;> simp [hk]

/-- The carry in fills the place that a left shift clears, so the `or` of the two is their sum. -/
theorem shiftLeft_one_or_carry :
    (v <<< 1) ||| BitVec.ofNat 8 c.toNat = BitVec.ofNat 8 (2 * v.toNat + c.toNat) := by
  have hdisjoint : (v <<< 1) &&& BitVec.ofNat 8 c.toNat = 0#8 := by
    apply BitVec.eq_of_getLsbD_eq
    intro k hk
    rw [BitVec.getLsbD_and, BitVec.getLsbD_shiftLeft, getLsbD_ofNat_carry]
    by_cases h0 : k = 0 <;> simp [h0]
  rw [← BitVec.add_eq_or_of_and_eq_zero _ _ hdisjoint, shiftLeft_one_eq_ofNat, BitVec.ofNat_add]

/-- The carry in, moved to bit 7, fills the place that a right shift clears. -/
theorem shiftRight_one_or_carry :
    (v >>> 1) ||| (BitVec.ofNat 8 c.toNat <<< 7) = BitVec.ofNat 8 (v.toNat / 2 + 128 * c.toNat) := by
  have hdisjoint : (v >>> 1) &&& (BitVec.ofNat 8 c.toNat <<< 7) = 0#8 := by
    apply BitVec.eq_of_getLsbD_eq
    intro k hk
    rw [BitVec.getLsbD_and, BitVec.getLsbD_ushiftRight, BitVec.getLsbD_shiftLeft, getLsbD_ofNat_carry]
    by_cases h7 : k = 7
    · simp [h7]
    · simp [show k - 7 = 0 ∧ k < 7 by omega]
  have hcarry : BitVec.ofNat 8 c.toNat <<< 7 = BitVec.ofNat 8 (128 * c.toNat) := by cases c <;> rfl
  rw [← BitVec.add_eq_or_of_and_eq_zero _ _ hdisjoint, shiftRight_one_eq_ofNat, hcarry, BitVec.ofNat_add]

/-- Bit 7 of a halved byte is 0. -/
theorem getLsbD_seven_half : (BitVec.ofNat 8 (v.toNat / 2)).getLsbD 7 = false := by
  rw [← shiftRight_one_eq_ofNat, BitVec.getLsbD_ushiftRight]
  exact BitVec.getLsbD_of_ge _ _ (by decide)

/-- Bit 7 of a halved byte with the carry in is the carry in. -/
theorem getLsbD_seven_half_add_carry : (BitVec.ofNat 8 (v.toNat / 2 + 128 * c.toNat)).getLsbD 7 = c := by
  rw [← shiftRight_one_or_carry, BitVec.getLsbD_or, shiftRight_one_eq_ofNat, getLsbD_seven_half, Bool.false_or]
  cases c <;> rfl

end Arithmetic

section Operations

variable (ea : Option Word) (s : State)

theorem asl_eq_shiftOp :
    asl ea s = shiftOp ea (fun v => BitVec.ofNat 8 (2 * v.toNat)) (fun v => decide (128 ≤ v.toNat)) s := by
  simp only [asl, shiftLeft_one_eq_ofNat, getLsbD_seven_eq_decide]

theorem lsr_eq_shiftOp :
    lsr ea s = shiftOp ea (fun v => BitVec.ofNat 8 (v.toNat / 2)) (fun v => decide (v.toNat % 2 = 1)) s := by
  simp only [lsr, shiftRight_one_eq_ofNat, getLsbD_zero_eq_decide]

theorem rol_eq_shiftOp :
    rol ea s = shiftOp ea (fun v => BitVec.ofNat 8 (2 * v.toNat + (s.flag .carry).toNat))
      (fun v => decide (128 ≤ v.toNat)) s := by
  simp only [rol, State.carryIn, shiftLeft_one_or_carry, getLsbD_seven_eq_decide]

theorem ror_eq_shiftOp :
    ror ea s = shiftOp ea (fun v => BitVec.ofNat 8 (v.toNat / 2 + 128 * (s.flag .carry).toNat))
      (fun v => decide (v.toNat % 2 = 1)) s := by
  simp only [ror, State.carryIn, shiftRight_one_or_carry, getLsbD_zero_eq_decide]

end Operations

/-! ## ROL on A as a rotation of nine bits (42_shifts_rotates.md R142) -/

section Rotation

variable (s : State) (w : BitVec 9)

/-- The nine bits that ROL on A rotates: Carry above A. -/
def carryAndA : BitVec 9 := BitVec.cons (s.flag .carry) s.a

theorem getLsbD_carryAndA (k : Nat) :
    (carryAndA s).getLsbD k = if k = 8 then s.flag .carry else s.a.getLsbD k :=
  BitVec.getLsbD_cons _ _ _

theorem getLsbD_rol_a {k : Nat} (hk : k < 8) :
    (rol none s).a.getLsbD k = if k = 0 then s.flag .carry else s.a.getLsbD (k - 1) := by
  have ha : (rol none s).a = (s.a <<< 1) ||| BitVec.ofNat 8 (s.flag .carry).toNat := rfl
  rw [ha, BitVec.getLsbD_or, BitVec.getLsbD_shiftLeft, getLsbD_ofNat_carry]
  by_cases h0 : k = 0 <;> simp [h0, hk]

theorem getLsbD_rotateLeft_one {k : Nat} (hk : k < 9) :
    (w.rotateLeft 1).getLsbD k = if k = 0 then w.getLsbD 8 else w.getLsbD (k - 1) := by
  rw [BitVec.getLsbD_rotateLeft]
  by_cases h0 : k = 0 <;> simp [h0, hk]

theorem carryAndA_rol : carryAndA (rol none s) = (carryAndA s).rotateLeft 1 := by
  have hcarry : (rol none s).flag .carry = s.a.getLsbD 7 := carry_shiftOp _ _ none s
  apply BitVec.eq_of_getLsbD_eq
  intro k hk
  rw [getLsbD_rotateLeft_one _ hk, getLsbD_carryAndA, getLsbD_carryAndA, getLsbD_carryAndA, hcarry]
  by_cases h8 : k = 8
  · simp [h8]
  · have hk8 : k < 8 := by omega
    have hpred : k - 1 ≠ 8 := by omega
    rw [if_neg h8, getLsbD_rol_a s hk8, if_neg hpred, if_pos rfl]

/-- Bit `k` after `n` rotations of nine bits is the bit `n` places below, around. -/
theorem getLsbD_iterate_rotateLeft_one {n : Nat} (hn : n ≤ 9) {k : Nat} (hk : k < 9) :
    ((BitVec.rotateLeft · 1)^[n] w).getLsbD k = w.getLsbD (if k < n then 9 - n + k else k - n) := by
  induction n generalizing k with
  | zero => rfl
  | succ n ih =>
    rw [Function.iterate_succ_apply', getLsbD_rotateLeft_one _ hk, ih (by omega) (by omega), ih (by omega) (by omega),
      ← apply_ite w.getLsbD]
    congr 1
    split_ifs <;> omega

theorem iterate_nine_rotateLeft_one : (BitVec.rotateLeft · 1)^[9] w = w := by
  apply BitVec.eq_of_getLsbD_eq
  intro k hk
  rw [getLsbD_iterate_rotateLeft_one w le_rfl hk, if_pos hk, Nat.sub_self, Nat.zero_add]

theorem carryAndA_iterate_nine_rol : carryAndA ((rol none)^[9] s) = carryAndA s :=
  have hsemiconj : Function.Semiconj carryAndA (rol none) (BitVec.rotateLeft · 1) := carryAndA_rol
  calc carryAndA ((rol none)^[9] s)
      = (BitVec.rotateLeft · 1)^[9] (carryAndA s) := hsemiconj.iterate_right 9 s
    _ = carryAndA s := iterate_nine_rotateLeft_one _

theorem a_and_carry_of_carryAndA_eq {s t : State} (h : carryAndA t = carryAndA s) :
    t.a = s.a ∧ t.flag .carry = s.flag .carry := by
  refine ⟨?_, ?_⟩
  · simpa [carryAndA] using congrArg (BitVec.setWidth 8) h
  · simpa [carryAndA] using congrArg BitVec.msb h

end Rotation

/-! ## The obligations -/

/-- Settles O37: ASL and ROL are `shiftOp` with the arithmetic of the statement, and ROL on A rotates the nine bits of
Carry and A. -/
theorem leftShiftsMoveBitSevenToCarry : Obligations.LeftShiftsMoveBitSevenToCarry := by
  unfold Obligations.LeftShiftsMoveBitSevenToCarry
  refine ⟨hasForms_formsOf .asl, hasForms_formsOf .rol, fun i s hi => ?_, fun i s hi => ?_, fun s => ?_⟩
  · exact replacesOperand_of_shiftOp hi (by decide) fun _ => asl_eq_shiftOp _ s
  · exact replacesOperand_of_shiftOp hi (by decide) fun _ => rol_eq_shiftOp _ s
  · exact a_and_carry_of_carryAndA_eq (carryAndA_iterate_nine_rol s)

/-- Settles O38: LSR and ROR are `shiftOp` with the arithmetic of the statement, whose results have a known bit 7. -/
theorem rightShiftsMoveBitZeroToCarry : Obligations.RightShiftsMoveBitZeroToCarry := by
  unfold Obligations.RightShiftsMoveBitZeroToCarry
  refine ⟨hasForms_formsOf .lsr, hasForms_formsOf .ror, fun i s hi => ?_, fun i s hi => ?_⟩
  · have hop := fun o => lsr_eq_shiftOp (targetOf o s) s
    exact ⟨replacesOperand_of_shiftOp hi (by decide) hop, fun t => sign_of_shiftOp hi hop getLsbD_seven_half⟩
  · have hop := fun o => ror_eq_shiftOp (targetOf o s) s
    exact ⟨replacesOperand_of_shiftOp hi (by decide) hop,
      fun t => sign_of_shiftOp hi hop (getLsbD_seven_half_add_carry · _)⟩

end Sys2Proof.Proofs
end

section
/-! Proofs of the family 43_compares.md: CMP, CPX and CPY (O39), through what the shared `compareWith` does to each flag
and to the rest of the state. -/

namespace Sys2Proof.Proofs

open Sys2Proof.Machine Sys2Proof.Terms Sys2Proof.Laws

/-! ## The subtraction as a sum with the one's complement (40_arithmetic.md R131) -/

section Difference

variable (g m : Byte)

theorem toNat_xor_ones : (m ^^^ 0xFF#8).toNat = 255 - m.toNat := by
  have hnot : m ^^^ 0xFF#8 = ~~~m := BitVec.xor_allOnes
  rw [hnot, BitVec.toNat_not]

theorem ofNat_add_xor_ones_add_one : BitVec.ofNat 8 (g.toNat + (m ^^^ 0xFF#8).toNat + 1) = g - m := by
  have := m.isLt
  apply BitVec.eq_of_toNat_eq
  rw [toNat_xor_ones, BitVec.toNat_ofNat, BitVec.toNat_sub]
  congr 1
  omega

/-- The sum has bit 8 exactly where the subtraction does not borrow. -/
theorem testBit_eight_add_xor_ones_add_one :
    (g.toNat + (m ^^^ 0xFF#8).toNat + 1).testBit 8 = decide (m.toNat ≤ g.toNat) := by
  have := g.isLt
  have := m.isLt
  rw [toNat_xor_ones, testBit_eight_of_lt (by omega)]
  apply decide_eq_decide.mpr
  omega

end Difference

/-! ## What a compare does to the state (43_compares.md) -/

section CompareWith

variable (g m : Byte) (s : State)

theorem carry_compareWith : (compareWith g m s).flag .carry = decide (m.toNat ≤ g.toNat) :=
  (isSet_computeFlags_carry _ _ _ _ _ (by decide)).trans (testBit_eight_add_xor_ones_add_one g m)

/-- Zero and Sign are of the difference, which is stored nowhere. -/
theorem znOf_compareWith : ZNOf (g - m) (compareWith g m s) := by
  rw [← ofNat_add_xor_ones_add_one]
  exact ⟨isSet_computeFlags_zero _ _ _ _ _ (by decide), isSet_computeFlags_sign _ _ _ _ _ (by decide)⟩

theorem zero_compareWith : (compareWith g m s).flag .zero = decide (g = m) := by
  obtain ⟨hzero, -⟩ := znOf_compareWith g m s
  exact hzero.trans (decide_eq_decide.mpr sub_eq_zero)

theorem sign_compareWith : (compareWith g m s).flag .sign = (g - m).getLsbD 7 := by
  obtain ⟨-, hsign⟩ := znOf_compareWith g m s
  exact hsign

theorem frame_compareWith : Frame [] [.carry, .zero, .sign] [] s (compareWith g m s) := by
  refine ⟨fun r _ => ?_, fun f hf => flag_compareWith hf g m, fun _ _ => rfl, rfl⟩
  cases r <;> rfl

end CompareWith

/-! ## CMP, CPX and CPY (43_compares.md R145 to R147) -/

/-- Each of the three is `compareWith` of its register and the operand. -/
theorem exec_of_compare {i : Instr} {m : EaMode} {s : State} {g : Byte} (ho : i.operand = .at m)
    (hg : (i.mnemonic, g) ∈ [(Mnemonic.cmp, s.a), (.cpx, s.x), (.cpy, s.y)]) :
    exec i s = .next (compareWith g (s.operand m) s) := by
  simp only [List.mem_cons, Prod.mk.injEq, List.not_mem_nil, or_false] at hg
  rcases hg with ⟨hmn, rfl⟩ | ⟨hmn, rfl⟩ | ⟨hmn, rfl⟩
  · exact exec_of_onAddress (op := cmp) (congrArg effect hmn) ho s
  · exact exec_of_onAddress (op := cpx) (congrArg effect hmn) ho s
  · exact exec_of_onAddress (op := cpy) (congrArg effect hmn) ho s

/-- Settles O39: each of the three is `compareWith`, and Carry, Zero and Sign after it do not depend on P before. -/
theorem comparesSetFlagsFromTheDifference : Obligations.ComparesSetFlagsFromTheDifference := by
  unfold Obligations.ComparesSetFlagsFromTheDifference
  refine ⟨hasForms_formsOf .cmp, hasForms_formsOf .cpx, hasForms_formsOf .cpy, fun i m s g ho hg => ?_⟩
  exact ⟨_, exec_of_compare ho hg, carry_compareWith g _ s, zero_compareWith g _ s, sign_compareWith g _ s,
    frame_compareWith g _ s⟩

end Sys2Proof.Proofs
end

section
/-! Proofs of the family 44_branches.md: the eight branches (O40), through what the shared `branchOn` does to the state
and what the rows of the branches cost. -/

namespace Sys2Proof.Proofs

open Sys2Proof.Machine Sys2Proof.Terms Sys2Proof.Laws

/-! ## What a branch does to the state (44_branches.md R150) -/

section BranchOn

variable (f : Flag) (b : Bool) (off : Int) (s : State)

theorem pc_branchOn : (branchOn f b off s).pc = if s.flag f = b then s.pc + BitVec.ofInt 16 off else s.pc :=
  congrArg State.pc (branchOn_eq f b off s)

theorem frame_branchOn : Frame [.pc] [] [] s (branchOn f b off s) := by
  rw [branchOn_eq]
  refine ⟨fun r hr => ?_, fun _ _ => rfl, fun _ _ => rfl, rfl⟩
  cases r with
  | pc => exact absurd (List.mem_singleton_self _) hr
  | a | x | y | sp => rfl

end BranchOn

/-! ## The mnemonics that branch (44_branches.md R151 to R158) -/

section Tests

variable {mn : Mnemonic} {f : Flag} {b : Bool}

theorem effect_of_mem_branchTests (h : (mn, f, b) ∈ branchTests) : effect mn = onOffset (branchOn f b) := by
  have hall : ∀ q ∈ branchTests, effect q.1 = onOffset (branchOn q.2.1 q.2.2) := List.map_inj_left.mp rfl
  exact hall _ h

/-- The cycle count's own table of branches agrees with `branchTests`. -/
theorem branchCondition_of_mem_branchTests (h : (mn, f, b) ∈ branchTests) : branchCondition mn = some (f, b) := by
  have hall : ∀ q ∈ branchTests, branchCondition q.1 = some q.2 := by decide
  exact hall _ h

theorem exec_of_branch {i : Instr} {off : Int} (ho : i.operand = .at (.relative off))
    (h : (i.mnemonic, f, b) ∈ branchTests) (s : State) : exec i s = .next (branchOn f b off s) := by
  rw [exec_eq_effect, effect_of_mem_branchTests h, ho]
  rfl

end Tests

/-! ## What a branch costs (30_encoding.md R99, 44_branches.md R150) -/

theorem baseCycles_of_branchCondition :
    ∀ r ∈ opcodeTable, (branchCondition r.mnemonic).isSome → r.baseCycles = 2 := by
  decide +kernel

/-- The row's two cycles, one more where the branch is taken, and one more where its target is on another page; the
Relative mode itself signals no page cross. -/
theorem cycleTotal_of_branch {i : Instr} {r : OpcodeRow} {off : Int} {f : Flag} {b : Bool}
    (ho : i.operand = .at (.relative off)) (h : (i.mnemonic, f, b) ∈ branchTests)
    (hr : lookupOpcode i.opcode = some r) (s : State) :
    cycleTotal r i s =
      2 + (s.flag f == b).toNat + (s.flag f == b && hi8 (s.pc + BitVec.ofInt 16 off) != hi8 s.pc).toNat := by
  obtain ⟨r', hr', hmn, -⟩ := lookupOpcode_opcode i
  obtain rfl : r' = r := Option.some.inj (hr'.symm.trans hr)
  have hcond : branchCondition r'.mnemonic = some (f, b) := hmn ▸ branchCondition_of_mem_branchTests h
  have hbase := baseCycles_of_branchCondition r' (List.mem_of_find?_eq_some hr) (hcond ▸ rfl)
  have htaken : s.branchTaken r'.mnemonic = (s.flag f == b) := by rw [State.branchTaken, hcond]
  rw [cycleTotal, hbase, htaken, ho]
  rfl

/-- Settles O40: each branch is `branchOn` of its flag and value, on a row of two cycles. -/
theorem branchesTestTheirFlag : Obligations.BranchesTestTheirFlag := by
  unfold Obligations.BranchesTestTheirFlag
  refine ⟨hasForms_formsOf .bpl, hasForms_formsOf .bmi, hasForms_formsOf .bvc, hasForms_formsOf .bvs,
    hasForms_formsOf .bcc, hasForms_formsOf .bcs, hasForms_formsOf .bne, hasForms_formsOf .beq,
    fun i off s f b ho h => ?_⟩
  refine ⟨_, exec_of_branch ho h s, pc_branchOn f b off s, frame_branchOn f b off s, fun r hr => ?_⟩
  rw [cycleTotal_of_branch ho h hr]
  by_cases htaken : s.flag f = b
  · by_cases hpage : hi8 (s.pc + BitVec.ofInt 16 off) = hi8 s.pc
    · simp [htaken, hpage]
    · simp [htaken, hpage, bne_iff_ne.mpr hpage]
  · simp [htaken, beq_false_of_ne htaken]

end Sys2Proof.Proofs
end

section
/-! Proofs of the family 45_incdec.md: INC and DEC (O41), through what the shared `modifyAt` does to the state, and INX,
INY, DEX and DEY (O42), through what a write of X or Y and of Zero and Sign leaves unchanged. -/

namespace Sys2Proof.Proofs

open Sys2Proof.Machine Sys2Proof.Terms Sys2Proof.Laws

/-! ## One more and one less, modulo 256 -/

section Count

variable (v : Byte)

theorem ofNat_toNat_add (k : Nat) : BitVec.ofNat 8 (v.toNat + k) = v + BitVec.ofNat 8 k := by
  rw [BitVec.ofNat_add, BitVec.ofNat_toNat, BitVec.setWidth_eq]

theorem add_one_eq_ofNat : v + 1#8 = BitVec.ofNat 8 (v.toNat + 1) := (ofNat_toNat_add v 1).symm

/-- One less is 255 more: 255 is the byte that stands for -1. -/
theorem sub_one_eq_ofNat : v - 1#8 = BitVec.ofNat 8 (v.toNat + 255) := by
  rw [ofNat_toNat_add, BitVec.sub_eq_add_neg]
  rfl

end Count

/-! ## INC and DEC (45_incdec.md R160, R161) -/

section ModifyAt

variable (addr : Word) (f : Byte → Byte) (s : State)

/-- The byte at the address and at its aliases is the new one. -/
theorem reads_modifyAt : Reads (modifyAt addr f s) addr (f (s.get addr)) :=
  fun _ hb => get_set_of_alias s _ hb

theorem znOf_modifyAt : ZNOf (f (s.get addr)) (modifyAt addr f s) := znOf_writeZN _ _

theorem frame_modifyAt : Frame [] [.zero, .sign] [addr] s (modifyAt addr f s) :=
  frame_trans (frame_set s addr _) (frame_writeZN _ _)

end ModifyAt

/-- INC and DEC are `modifyAt` of the effective address, with 1 or 255 added. -/
theorem exec_of_incDec {i : Instr} {m : EaMode} {k : Nat} (ho : i.operand = .at m)
    (hk : (i.mnemonic, k) ∈ [(Mnemonic.inc, 1), (.dec, 255)]) (s : State) :
    exec i s = .next (modifyAt (s.ea m) (fun v => BitVec.ofNat 8 (v.toNat + k)) s) := by
  simp only [List.mem_cons, Prod.mk.injEq, List.not_mem_nil, or_false] at hk
  rcases hk with ⟨hmn, rfl⟩ | ⟨hmn, rfl⟩
  · simpa only [inc, add_one_eq_ofNat] using exec_of_onAddress (op := inc) (congrArg effect hmn) ho s
  · simpa only [dec, sub_one_eq_ofNat] using exec_of_onAddress (op := dec) (congrArg effect hmn) ho s

/-- Settles O41: both are `modifyAt`, which writes the byte at the effective address, Zero and Sign. -/
theorem incAndDecChangeMemoryByOne : Obligations.IncAndDecChangeMemoryByOne := by
  unfold Obligations.IncAndDecChangeMemoryByOne
  refine ⟨hasForms_formsOf .inc, hasForms_formsOf .dec, fun i m s k ho hk => ?_⟩
  exact ⟨_, exec_of_incDec ho hk s, reads_modifyAt _ _ s, znOf_modifyAt _ _ s, frame_modifyAt _ _ s⟩

/-! ## Writes of X and Y, with Zero and Sign (00_scope.md R8) -/

section WriteXY

variable (v : Byte) (s : State)

theorem frame_setX : Frame [.x] [] [] s (s.setX v) := by
  refine ⟨fun r hr => ?_, fun f _ => setX_flag s v f, fun b _ => setX_get s v b, setX_cfg s v⟩
  cases r with
  | x => exact absurd (List.mem_singleton_self _) hr
  | a | y | sp | pc => rfl

theorem frame_setY : Frame [.y] [] [] s (s.setY v) := by
  refine ⟨fun r hr => ?_, fun f _ => setY_flag s v f, fun b _ => setY_get s v b, setY_cfg s v⟩
  cases r with
  | y => exact absurd (List.mem_singleton_self _) hr
  | a | x | sp | pc => rfl

theorem frame_setX_writeZN : Frame [.x] [.zero, .sign] [] s ((s.setX v).writeZN v) :=
  frame_trans (frame_setX v s) (frame_writeZN v _)

theorem frame_setY_writeZN : Frame [.y] [.zero, .sign] [] s ((s.setY v).writeZN v) :=
  frame_trans (frame_setY v s) (frame_writeZN v _)

end WriteXY

/-! ## INX, INY, DEX and DEY (45_incdec.md R162 to R165) -/

/-- Completion of an instruction whose effect takes no operand. -/
theorem exec_of_noOperand {op : State → State} {i : Instr} (hop : effect i.mnemonic = fun _ => op) (s : State) :
    exec i s = .next (op s) := by
  rw [exec_eq_effect, hop]

/-- Settles O42: each of the four writes the register, one more or one less, and Zero and Sign of it. -/
theorem indexRegistersCountByOne : Obligations.IndexRegistersCountByOne := by
  unfold Obligations.IndexRegistersCountByOne
  refine ⟨hasForms_formsOf .inx, hasForms_formsOf .iny, hasForms_formsOf .dex, hasForms_formsOf .dey,
    fun i s => ⟨fun hmn => ?_, fun hmn => ?_, fun hmn => ?_, fun hmn => ?_⟩⟩
  · exact ⟨inx s, exec_of_noOperand (congrArg effect hmn) s, add_one_eq_ofNat s.x, znOf_writeZN _ _,
      frame_setX_writeZN _ s⟩
  · exact ⟨iny s, exec_of_noOperand (congrArg effect hmn) s, add_one_eq_ofNat s.y, znOf_writeZN _ _,
      frame_setY_writeZN _ s⟩
  · exact ⟨dex s, exec_of_noOperand (congrArg effect hmn) s, sub_one_eq_ofNat s.x, znOf_writeZN _ _,
      frame_setX_writeZN _ s⟩
  · exact ⟨dey s, exec_of_noOperand (congrArg effect hmn) s, sub_one_eq_ofNat s.y, znOf_writeZN _ _,
      frame_setY_writeZN _ s⟩

end Sys2Proof.Proofs
end

section
/-! Proofs of the family 46_load_store.md: LDA, LDX and LDY (O43), each a write of its register and of Zero and Sign,
and STA, STX and STY (O44), each a write of memory alone. -/

namespace Sys2Proof.Proofs

open Sys2Proof.Machine Sys2Proof.Terms Sys2Proof.Laws

/-! ## LDA, LDX and LDY (46_load_store.md R170 to R172) -/

/-- Settles O43: each of the three writes its register, and Zero and Sign of the operand; LDA's write of A is the one
that the logical operations share. -/
theorem loadsPutTheOperandInTheRegister : Obligations.LoadsPutTheOperandInTheRegister := by
  unfold Obligations.LoadsPutTheOperandInTheRegister
  refine ⟨hasForms_formsOf .lda, hasForms_formsOf .ldx, hasForms_formsOf .ldy,
    fun i m s ho => ⟨fun hmn => ?_, fun hmn => ?_, fun hmn => ?_⟩⟩
  · exact ⟨lda m s, exec_of_onAddress (congrArg effect hmn) ho s, rfl, znOf_writeZN _ _, frame_logicalA _ s⟩
  · exact ⟨ldx m s, exec_of_onAddress (congrArg effect hmn) ho s, rfl, znOf_writeZN _ _, frame_setX_writeZN _ s⟩
  · exact ⟨ldy m s, exec_of_onAddress (congrArg effect hmn) ho s, rfl, znOf_writeZN _ _, frame_setY_writeZN _ s⟩

/-! ## STA, STX and STY (46_load_store.md R173 to R175) -/

/-- Each of the three is `set` of the effective address to its register. -/
theorem exec_of_store {i : Instr} {m : EaMode} {s : State} {g : Byte} (ho : i.operand = .at m)
    (hg : (i.mnemonic, g) ∈ [(Mnemonic.sta, s.a), (.stx, s.x), (.sty, s.y)]) :
    exec i s = .next (s.set (s.ea m) g) := by
  simp only [List.mem_cons, Prod.mk.injEq, List.not_mem_nil, or_false] at hg
  rcases hg with ⟨hmn, rfl⟩ | ⟨hmn, rfl⟩ | ⟨hmn, rfl⟩
  · exact exec_of_onAddress (op := sta) (congrArg effect hmn) ho s
  · exact exec_of_onAddress (op := stx) (congrArg effect hmn) ho s
  · exact exec_of_onAddress (op := sty) (congrArg effect hmn) ho s

/-- A write is read back through the address and through each of its aliases. -/
theorem reads_set (s : State) (addr : Word) (v : Byte) : Reads (s.set addr v) addr v :=
  fun _ hb => get_set_of_alias s v hb

/-- Settles O44: each of the three is `set`, whose write lands in the folded cell and leaves the rest as it was. -/
theorem storesWriteTheRegisterToMemory : Obligations.StoresWriteTheRegisterToMemory := by
  unfold Obligations.StoresWriteTheRegisterToMemory
  refine ⟨hasForms_formsOf .sta, hasForms_formsOf .stx, hasForms_formsOf .sty, fun i m s g ho hg => ?_⟩
  have hcell : (s.set (s.ea m) g).mem.readCell (fold s.cfg.prgMirror (s.ea m)).toNat = g := by
    rw [readCell_set, if_pos rfl]
  exact ⟨_, exec_of_store ho hg, reads_set s (s.ea m) g, hcell, frame_set s (s.ea m) g⟩

end Sys2Proof.Proofs
end

section
/-! Proofs of the family 47_transfers_stack.md: TAX, TAY, TXA, TYA, TSX and TXS (O45), each a write of its destination
with the value of its source. -/

namespace Sys2Proof.Proofs

open Sys2Proof.Machine Sys2Proof.Terms Sys2Proof.Laws

/-! ## TAX, TAY, TXA, TYA, TSX and TXS (47_transfers_stack.md R180 to R185) -/

/-- Settles O45: each of the first five writes its destination, and Zero and Sign of the copied value; TXS is the write
of SP alone. TXA's and TYA's write of A is the one that the logical operations share. -/
theorem transfersCopyARegister : Obligations.TransfersCopyARegister := by
  unfold Obligations.TransfersCopyARegister
  refine ⟨hasForms_formsOf .tax, hasForms_formsOf .tay, hasForms_formsOf .txa, hasForms_formsOf .tya,
    hasForms_formsOf .tsx, hasForms_formsOf .txs,
    fun i s => ⟨fun hmn => ?_, fun hmn => ?_, fun hmn => ?_, fun hmn => ?_, fun hmn => ?_, fun hmn => ?_⟩⟩
  · exact ⟨(s.setX s.a).writeZN s.a, exec_of_noOperand (congrArg effect hmn) s, rfl,
      znOf_writeZN _ _, frame_setX_writeZN s.a s⟩
  · exact ⟨(s.setY s.a).writeZN s.a, exec_of_noOperand (congrArg effect hmn) s, rfl,
      znOf_writeZN _ _, frame_setY_writeZN s.a s⟩
  · exact ⟨logicalA s.x s, exec_of_noOperand (congrArg effect hmn) s, rfl, znOf_writeZN _ _, frame_logicalA s.x s⟩
  · exact ⟨logicalA s.y s, exec_of_noOperand (congrArg effect hmn) s, rfl, znOf_writeZN _ _, frame_logicalA s.y s⟩
  · exact ⟨(s.setX s.sp).writeZN s.sp, exec_of_noOperand (congrArg effect hmn) s, rfl,
      znOf_writeZN _ _, frame_setX_writeZN s.sp s⟩
  · exact ⟨s.setSP s.x, exec_of_noOperand (congrArg effect hmn) s, rfl, frame_setSP s s.x⟩

end Sys2Proof.Proofs
end

section
/-! Proofs about the encoding: the decoder against the encoder (O1, O2), the rows of the opcode table (O4, O5), and the
step in terms of the decoder (O6, O8). -/

namespace Sys2Proof.Proofs

open Sys2Proof.Machine Sys2Proof.Terms Sys2Proof.Laws

/-! ## What the decoder answers (30_encoding.md R98 step 1) -/

/-- Bytes decode exactly when the first has a row and the operand bytes of the row's mode are all there. -/
theorem decode_cons_eq_ok_iff {op : Byte} {tail rest : List Byte} {i : Instr} :
    decode (op :: tail) = .ok (i, rest) ↔
      ∃ r, lookupOpcode op = some r ∧ r.mode.length ≤ tail.length + 1 ∧
        r.build (tail.getD 0 0#8) (tail.getD 1 0#8) = i ∧ tail.drop (r.mode.length - 1) = rest := by
  rw [decode_cons]
  cases lookupOpcode op with
  | none => simp
  | some r =>
    by_cases hlen : tail.length + 1 < r.mode.length
    · simp [hlen]
    · simp [hlen, Nat.le_of_not_lt hlen]

theorem length_operand_bytes (i : Instr) : i.operand.bytes.length + 1 = i.length := length_encode i

/-- Settles O1: the row of the instruction's opcode byte builds the instruction from its operand bytes, and dropping as
many bytes as those leaves the rest. -/
theorem decodeOfEncodeIsTheInstruction : Obligations.DecodeOfEncodeIsTheInstruction := by
  unfold Obligations.DecodeOfEncodeIsTheInstruction
  intro i rest hwf
  obtain ⟨r, hr, -, hmode, hbuild⟩ := statement_of_instr i
  have hlen : i.operand.bytes.length + 1 = r.mode.length := hmode ▸ length_operand_bytes i
  have hle : r.mode.length ≤ (i.operand.bytes ++ rest).length + 1 := by
    rw [List.length_append]
    omega
  exact decode_cons_eq_ok_iff.mpr ⟨r, hr, hle, hbuild hwf rest, List.drop_left' (by omega)⟩

/-! ## The operand a mode makes of two bytes, encoded again -/

/-- Only a signed byte is ever made a branch offset. -/
theorem wf_operandOf (m : Mode) (b₁ b₂ : Byte) : (operandOf m b₁ b₂).wf = true := by
  cases m with
  | relative => simpa [operandOf, Operand.wf, EaMode.wf] using signedOffset_range b₁
  | _ => rfl

theorem bytes_operandOf (m : Mode) (b₁ b₂ : Byte) : (operandOf m b₁ b₂).bytes = [b₁, b₂].take (m.length - 1) := by
  cases m with
  | implied | accumulator => rfl
  | immediate | zeroPage | zeroPageX | zeroPageY | indexedIndirect | indirectIndexed => rfl
  | relative => exact congrArg (fun b => [b]) (offsetByte_signedOffset b₁)
  | absolute | absoluteX | absoluteY | indirect =>
    exact congrArg₂ (fun l h => [l, h]) (lo8_pair b₂ b₁) (hi8_pair b₂ b₁)

/-- The first two bytes of a list, read with a default, are the list's own as far as it goes. -/
theorem take_getD_append_drop {n : Nat} {l : List Byte} (hn : n ≤ 2) (hl : n ≤ l.length) :
    [l.getD 0 0#8, l.getD 1 0#8].take n ++ l.drop n = l := by
  match n, l with
  | 0, _ => rfl
  | 1, _ :: _ => rfl
  | 2, _ :: _ :: _ => rfl

theorem length_mode_range (m : Mode) : 1 ≤ m.length ∧ m.length ≤ 3 := by
  cases m <;> decide

/-- Settles O2: what a row builds has the row's byte and the operand its mode makes of the bytes read, and those are
encoded as they were. -/
theorem encodeOfDecodeIsTheBytes : Obligations.EncodeOfDecodeIsTheBytes := by
  unfold Obligations.EncodeOfDecodeIsTheBytes
  intro bytes rest i h
  cases bytes with
  | nil => cases h
  | cons op tail =>
    obtain ⟨r, hr, hlen, rfl, rfl⟩ := decode_cons_eq_ok_iff.mp h
    obtain ⟨hop, -, ho⟩ := build_of_lookupOpcode hr (tail.getD 0 0#8) (tail.getD 1 0#8)
    obtain ⟨-, hmode⟩ := length_mode_range r.mode
    refine ⟨?_, ?_⟩
    · rw [Instr.wf, ho, wf_operandOf]
    · rw [encode, hop, ho, bytes_operandOf, List.cons_append, take_getD_append_drop (by omega) (by omega)]

/-! ## The rows (30_encoding.md R81, R82) -/

theorem pairwise_opcode_ne : opcodeTable.Pairwise (fun r q => r.opcode ≠ q.opcode) :=
  List.pairwise_map.mp nodup_bytes.of_append_right

/-- The length is a function of the mode: the three classes of R82. -/
theorem length_mode_iff (m : Mode) :
    (m.length = 1 ↔ m ∈ [Mode.implied, .accumulator]) ∧
    (m.length = 2 ↔ m ∈ [Mode.immediate, .zeroPage, .zeroPageX, .zeroPageY, .indexedIndirect, .indirectIndexed,
      .relative]) ∧
    (m.length = 3 ↔ m ∈ [Mode.absolute, .absoluteX, .absoluteY, .indirect]) := by
  cases m <;> decide

/-- Settles O4: `build_of_lookupOpcode` for byte, mnemonic and mode, and the mode for the length. -/
theorem everyRowBuildsItsOwnInstruction : Obligations.EveryRowBuildsItsOwnInstruction := by
  unfold Obligations.EveryRowBuildsItsOwnInstruction
  refine ⟨rfl, pairwise_opcode_ne, fun op r b₁ b₂ hr => ?_⟩
  obtain ⟨hop, hmn, ho⟩ := build_of_lookupOpcode hr b₁ b₂
  have hmode : (r.build b₁ b₂).mode = r.mode := by rw [Instr.mode, ho, mode_operandOf]
  have hbytes : (r.build b₁ b₂).length = 1 + (r.build b₁ b₂).operand.bytes.length := by
    rw [← length_operand_bytes, Nat.add_comm]
  refine ⟨hop, hmn, hmode, hbytes, ?_⟩
  rw [length_build hr]
  exact length_mode_iff r.mode

/-- Settles O5: each line by running the decoder. -/
theorem wordsDecodeAsTheTableSays : Obligations.WordsDecodeAsTheTableSays := by
  unfold Obligations.WordsDecodeAsTheTableSays
  exact ⟨rfl, rfl, rfl, rfl, rfl, rfl, rfl, rfl, rfl, rfl, rfl, rfl, rfl⟩

/-! ## The step in terms of the decoder (30_encoding.md R98) -/

/-- What the list decoder reads at PC is what is fetched. -/
theorem fetch_of_decode {s : State} {i : Instr} {rest : List Byte}
    (h : decode [s.get s.pc, s.get (s.pc + 1#16), s.get (s.pc + 2#16)] = .ok (i, rest)) : s.fetch = some i := by
  obtain ⟨r, hr, -, hi, -⟩ := decode_cons_eq_ok_iff.mp h
  exact (fetch_of_lookupOpcode hr).trans (congrArg some hi)

/-- Settles O6: the decoder's instruction is the fetched one, and what decodes is well-formed (O2). -/
theorem stepRunsTheDecodedInstruction : Obligations.StepRunsTheDecodedInstruction := by
  unfold Obligations.StepRunsTheDecodedInstruction
  intro s i rest h
  obtain ⟨hwf, -⟩ := encodeOfDecodeIsTheBytes _ _ _ h
  exact ⟨hwf, step_of_fetch (fetch_of_decode h)⟩

/-- A byte with a row is the opcode byte of a step that completes. -/
theorem exists_next_of_lookupOpcode {s : State} {r : OpcodeRow} (h : lookupOpcode (s.get s.pc) = some r) :
    ∃ t, step s = .next t :=
  ⟨_, (step_of_fetch (fetch_of_lookupOpcode h)).trans (exec_eq_effect _ _)⟩

theorem step_of_brk {s : State} (h : s.get s.pc = 0x00#8) : step s = .next (s.advance 1).trapEntry := by
  have hfetch : s.fetch = some .brk := by
    rw [State.fetch, State.opcodeByte, h]
    rfl
  exact step_of_fetch hfetch

/-- Settles O8: a byte of the list has no row and raises; any other has a row, whose instruction completes. -/
theorem unimplementedOpcodeIsTheOnlyStop : Obligations.UnimplementedOpcodeIsTheOnlyStop := by
  unfold Obligations.UnimplementedOpcodeIsTheOnlyStop
  intro s
  have hmem := mem_unimplementedBytes_iff (s.get s.pc)
  cases hr : lookupOpcode (s.get s.pc) with
  | none =>
    have hstep := step_of_lookupOpcode_none hr
    have hlisted := hmem.mpr hr
    refine ⟨?_, fun f => ?_, step_of_brk, fun _ => ?_⟩
    · simp [hstep, hlisted]
    · simp [hstep, hlisted, eq_comm]
    · simp [hstep]
  | some r =>
    obtain ⟨t, hstep⟩ := exists_next_of_lookupOpcode hr
    have hlisted : s.get s.pc ∉ unimplementedBytes := fun h => by simp [hmem.mp h] at hr
    refine ⟨?_, fun f => ?_, step_of_brk, fun _ => ?_⟩
    · simp [hstep, hlisted]
    · simp [hstep, hlisted]
    · simp [hstep]

end Sys2Proof.Proofs
end

section
/-! Proofs about memory: the ranges of `fold` (O16), the canonical form of the backing array (O21), the pointers in page
zero (O28), and the instruction stored at PC (O24). -/

namespace Sys2Proof.Proofs

open Sys2Proof.Machine Sys2Proof.Terms Sys2Proof.Laws

/-! ## The four ranges of `fold` (20_memory.md R51) -/

section FoldRanges

variable (pm : Bool) {a : Word}

theorem toNat_fold_of_mirrored (h : 0x8000 ≤ a.toNat) : (fold true a).toNat = 0x8000 + a.toNat % 0x4000 := by
  have hlt := a.isLt
  have hand : (a &&& 0x3FFF#16).toNat = a.toNat % 0x4000 := Nat.and_two_pow_sub_one_eq_mod _ 14
  rw [fold, if_neg (by omega), if_neg (by omega), if_pos ⟨⟨h, by omega⟩, rfl⟩, BitVec.toNat_add, hand,
    BitVec.toNat_ofNat]
  omega

theorem fold_of_plain (h : 0x4000 ≤ a.toNat) (h' : a.toNat ≤ 0x7FFF ∨ pm = false) : fold pm a = a := by
  have hmirror : ¬ ((0x8000 ≤ a.toNat ∧ a.toNat ≤ 0xFFFF) ∧ pm = true) := by
    rintro ⟨⟨hlow, -⟩, rfl⟩
    rcases h' with h' | h'
    · omega
    · cases h'
  rw [fold, if_neg (by omega), if_neg (by omega), if_neg hmirror]

/-- Each address is in one of the four ranges, and there the folded address is a number of the address. -/
theorem fold_cases (a : Word) :
    (a.toNat ≤ 0x1FFF ∧ (fold pm a).toNat = a.toNat % 0x800) ∨
    (0x2000 ≤ a.toNat ∧ a.toNat ≤ 0x3FFF ∧ (fold pm a).toNat = 0x2000 + a.toNat % 8) ∨
    (0x4000 ≤ a.toNat ∧ (a.toNat ≤ 0x7FFF ∨ pm = false) ∧ (fold pm a).toNat = a.toNat) ∨
    (0x8000 ≤ a.toNat ∧ pm = true ∧ (fold pm a).toNat = 0x8000 + a.toNat % 0x4000) := by
  by_cases hram : a.toNat ≤ 0x1FFF
  · exact .inl ⟨hram, toNat_fold_of_ram pm hram⟩
  by_cases hio : a.toNat ≤ 0x3FFF
  · exact .inr (.inl ⟨by omega, hio, toNat_fold_of_io pm (by omega) hio⟩)
  by_cases hplain : a.toNat ≤ 0x7FFF ∨ pm = false
  · exact .inr (.inr (.inl ⟨by omega, hplain, congrArg BitVec.toNat (fold_of_plain pm (by omega) hplain)⟩))
  · obtain ⟨hhigh, hpm⟩ := not_or.mp hplain
    obtain rfl : pm = true := Bool.eq_true_of_not_eq_false hpm
    exact .inr (.inr (.inr ⟨by omega, rfl, toNat_fold_of_mirrored (by omega)⟩))

/-- The addresses that `fold` leaves alone. -/
theorem fold_eq_self_iff (a : Word) :
    fold pm a = a ↔ a.toNat ≤ 0x07FF ∨ (0x2000 ≤ a.toNat ∧ a.toNat ≤ 0x2007) ∨
      (0x4000 ≤ a.toNat ∧ a.toNat ≤ 0x7FFF) ∨ (0x8000 ≤ a.toNat ∧ (pm = true → a.toNat ≤ 0xBFFF)) := by
  have hlt := a.isLt
  rw [← BitVec.toNat_inj]
  rcases fold_cases pm a with ⟨hr, hf⟩ | ⟨hr, hr', hf⟩ | ⟨hr, hr' | rfl, hf⟩ | ⟨hr, rfl, hf⟩
  · omega
  · omega
  · omega
  · simp only [Bool.false_eq_true, false_imp_iff, and_true]
    omega
  · simp only [true_imp_iff]
    omega

/-- `fold` is idempotent: each folded address is one of those it leaves alone. -/
theorem fold_fold (a : Word) : fold pm (fold pm a) = fold pm a := by
  rw [fold_eq_self_iff]
  rcases fold_cases pm a with ⟨hr, hf⟩ | ⟨hr, hr', hf⟩ | ⟨hr, hr' | rfl, hf⟩ | ⟨hr, rfl, hf⟩
  · omega
  · omega
  · omega
  · simp only [Bool.false_eq_true, false_imp_iff, and_true]
    omega
  · simp only [true_imp_iff]
    omega

/-- Every range has a multiple of 8 for its size and its base, so `fold` keeps the three low bits. -/
theorem toNat_fold_mod_eight (a : Word) : (fold pm a).toNat % 8 = a.toNat % 8 := by
  rcases fold_cases pm a with ⟨-, hf⟩ | ⟨-, -, hf⟩ | ⟨-, -, hf⟩ | ⟨-, -, hf⟩ <;> omega

end FoldRanges

/-- Settles O16: each range by its own lemma, idempotence and the image by the list of the addresses left alone. -/
theorem foldFollowsTheFourRanges : Obligations.FoldFollowsTheFourRanges := by
  unfold Obligations.FoldFollowsTheFourRanges
  refine fun pm a => ⟨toNat_fold_of_ram pm, toNat_fold_of_io pm, fun h hpm => ?_, fold_of_plain pm, fold_fold pm a,
    fold_eq_self_iff pm a⟩
  subst hpm
  exact toNat_fold_of_mirrored h

/-! ## The canonical form (10_state.md R32) -/

theorem wf_of_wf_cons {c : Host.Cell} {m : Memory} (h : Memory.wf (c :: m)) : m.wf :=
  ⟨h.1.of_cons, fun d hd => h.2 d (List.mem_cons_of_mem c hd)⟩

/-- A cell is listed in a canonical memory exactly when it reads as its byte and that is not the unlisted byte. -/
theorem mem_iff_readCell {m : Memory} (h : m.wf) (k : Nat) (v : Byte) :
    (k, v) ∈ m ↔ m.readCell k = v ∧ v ≠ Memory.unlisted := by
  induction m with
  | nil => simp [Memory.readCell, eq_comm]
  | cons c rest ih =>
    obtain ⟨j, w⟩ := c
    have ih := ih (wf_of_wf_cons h)
    obtain ⟨hrising, hlisted⟩ := h
    obtain ⟨hhead, -⟩ := List.pairwise_cons.mp hrising
    obtain ⟨-, hw⟩ := hlisted (j, w) (List.mem_cons_self ..)
    by_cases hk : j = k
    · subst hk
      have hrest : (j, v) ∉ rest := fun hmem => lt_irrefl j (hhead _ hmem)
      have hcell : Memory.readCell ((j, w) :: rest) j = w := if_pos rfl
      rw [hcell, List.mem_cons, or_iff_left hrest, Prod.mk.injEq, and_iff_right rfl]
      exact ⟨fun h => ⟨h.symm, h ▸ hw⟩, fun ⟨hv, _⟩ => hv.symm⟩
    · simp [Memory.readCell, hk, ih, Ne.symm hk]

/-- Settles O21: canonical memories that read alike list the same cells, and both list them in rising order. -/
theorem canonicalMemoriesThatReadAlikeAreEqual : Obligations.CanonicalMemoriesThatReadAlikeAreEqual := by
  unfold Obligations.CanonicalMemoriesThatReadAlikeAreEqual
  intro m m' hm hm' hread
  have hirrefl : Std.Irrefl (fun c d : Host.Cell => c.1 < d.1) := ⟨fun c => lt_irrefl c.1⟩
  have hantisymm : Std.Antisymm (fun c d : Host.Cell => c.1 < d.1) := ⟨fun _ _ h h' => absurd h' h.asymm⟩
  refine List.Pairwise.eq_of_mem_iff hm.1 hm'.1 fun ⟨k, v⟩ => ?_
  rw [mem_iff_readCell hm, mem_iff_readCell hm', hread]

/-! ## Pointers in page zero (30_encoding.md R94, R95) -/

theorem zext16_eq_ofNat (v : Byte) : zext16 v = BitVec.ofNat 16 v.toNat :=
  (BitVec.ofNat_toNat 16 v).symm

/-- The word at a page-zero pointer: the second byte is at the next address, 0x0100 after 0x00FF. -/
theorem get16_zext16 (s : State) (v : Byte) :
    s.get16 (zext16 v) = s.get (BitVec.ofNat 16 (v.toNat + 1)) ++ s.get (BitVec.ofNat 16 v.toNat) := by
  rw [get16_eq, zext16_eq_ofNat, ← BitVec.ofNat_add]
  rfl

/-- Settles O28: both modes read their pointer by `get16`; the base's high byte is the byte at the higher address. -/
theorem zeroPagePointersAreReadByGetSixteen : Obligations.ZeroPagePointersAreReadByGetSixteen := by
  unfold Obligations.ZeroPagePointersAreReadByGetSixteen
  intro s d
  have hindexed : s.ea (.indexedIndirect d) = s.get16 (zext16 (d + s.x)) := rfl
  have hbase : s.ea (.indirectIndexed d) = s.get16 (zext16 d) + s.y.setWidth 16 := rfl
  have hcross : s.pageCrossed (.indirectIndexed d) =
      (hi8 (s.ea (.indirectIndexed d)) != hi8 (s.get16 (zext16 d))) := rfl
  refine ⟨?_, rfl, ?_, ?_, rfl, rfl⟩
  · rw [hindexed, get16_zext16, BitVec.toNat_add]
  · rw [hbase, get16_zext16]
  · have hhigh : hi8 (s.get16 (zext16 d)) = s.get (BitVec.ofNat 16 (d.toNat + 1)) := by
      rw [get16_zext16]
      exact hi8_pair _ _
    rw [hcross, hhigh, Bool.eq_iff_iff, bne_iff_ne, decide_eq_true_iff]

/-! ## Bytes stored from an address on (20_memory.md R53, R66) -/

section LoadBytes

variable (s : State) (addr : Word)

theorem pc_loadBytes (bs : List Byte) : (s.loadBytes addr bs).pc = s.pc := by
  induction bs generalizing s addr with
  | nil => rfl
  | cons b bs ih => exact ih (s.set addr b) (addr + 1#16)

/-- Two addresses at most 7 apart are no aliases: `fold` keeps the three low bits. -/
theorem fold_ne_fold_add (pm : Bool) {k : Nat} (hpos : 0 < k) (hk : k < 8) :
    fold pm addr ≠ fold pm (addr + BitVec.ofNat 16 k) := by
  intro h
  have hmod := congrArg (fun w : Word => w.toNat % 8) h
  have hadd : (addr + BitVec.ofNat 16 k).toNat = (addr.toNat + k) % 65536 := by
    rw [BitVec.toNat_add, BitVec.toNat_ofNat, Nat.add_mod_mod]
  simp only [toNat_fold_mod_eight, hadd] at hmod
  omega

/-- Fewer than 8 bytes stored after an address leave the byte at it. -/
theorem get_loadBytes_of_before {bs : List Byte} {k : Nat} (hpos : 0 < k) (hlen : k + bs.length ≤ 8) :
    (s.loadBytes (addr + BitVec.ofNat 16 k) bs).get addr = s.get addr := by
  induction bs generalizing s k with
  | nil => rfl
  | cons b bs ih =>
    rw [List.length_cons] at hlen
    rw [State.loadBytes, add_assoc, ← BitVec.ofNat_add, ih _ (by omega) (by omega)]
    exact get_set_of_ne s b (fold_ne_fold_add addr _ hpos (by omega))

/-- Up to 8 bytes stored from an address on are read back from there on. -/
theorem get_loadBytes {bs : List Byte} (hlen : bs.length ≤ 8) {k : Nat} (hk : k < bs.length) :
    (s.loadBytes addr bs).get (addr + BitVec.ofNat 16 k) = bs[k] := by
  induction bs generalizing s addr k with
  | nil => cases hk
  | cons b bs ih =>
    rw [List.length_cons] at hlen hk
    rw [State.loadBytes]
    cases k with
    | zero =>
      rw [show addr + BitVec.ofNat 16 0 = addr from add_zero addr,
        get_loadBytes_of_before (s.set addr b) addr (k := 1) (by omega) (by omega)]
      exact get_set_of_alias s b rfl
    | succ k =>
      have haddr : addr + BitVec.ofNat 16 (k + 1) = addr + 1#16 + BitVec.ofNat 16 k := by
        rw [Nat.add_comm, BitVec.ofNat_add, add_assoc]
      exact (congrArg (State.get _) haddr).trans (ih _ _ (by omega) (by omega))

/-- The instruction's bytes, stored at an address, are what the first reads from that address find. -/
theorem reads_loadBytes {bs : List Byte} (hpos : 1 ≤ bs.length) (hlen : bs.length ≤ 3) :
    ∃ rest, [(s.loadBytes addr bs).get addr, (s.loadBytes addr bs).get (addr + 1#16),
      (s.loadBytes addr bs).get (addr + 2#16)] = bs ++ rest := by
  have hget {k : Nat} (hk : k < bs.length) : (s.loadBytes addr bs).get (addr + BitVec.ofNat 16 k) = bs[k] :=
    get_loadBytes s addr (by omega) hk
  have hzero : (s.loadBytes addr bs).get addr = bs[0] := (congrArg (State.get _) (add_zero addr).symm).trans (hget hpos)
  generalize s.loadBytes addr bs = t at hget hzero
  rcases bs with _ | ⟨a, _ | ⟨b, _ | ⟨c, _ | _⟩⟩⟩
  · cases hpos
  · exact ⟨[_, _], by rw [hzero]; rfl⟩
  · exact ⟨[_], by rw [hzero, hget (k := 1) (by simp)]; rfl⟩
  · exact ⟨[], by rw [hzero, hget (k := 1) (by simp), hget (k := 2) (by simp)]; rfl⟩
  · simp only [List.length_cons] at hlen
    omega

end LoadBytes

/-- Settles O24: the bytes at PC are the encoding, which decodes to the instruction (O1), and the step runs what they
decode to (O6). -/
theorem storedInstructionIsTheNextFetched : Obligations.StoredInstructionIsTheNextFetched := by
  unfold Obligations.StoredInstructionIsTheNextFetched
  intro s i hwf
  obtain ⟨hpos, hlen⟩ := length_mode_range i.mode
  rw [← Instr.length, ← length_encode] at hpos hlen
  obtain ⟨rest, hreads⟩ := reads_loadBytes s s.pc hpos hlen
  have hpc := pc_loadBytes s s.pc (encode i)
  have hdecode := decodeOfEncodeIsTheInstruction i rest hwf
  rw [← hreads] at hdecode
  generalize s.loadBytes s.pc (encode i) = t at hdecode hpc
  rw [← hpc] at hdecode ⊢
  obtain ⟨-, hstep⟩ := stepRunsTheDecodedInstruction t i rest hdecode
  exact hstep

end Sys2Proof.Proofs
end

section
/-! Proofs about what an instruction writes: the registers (O14), the backing array (O15), and from these the invariant
along a step (O9) and along the events of the interface (O10). -/

namespace Sys2Proof.Proofs

open Sys2Proof.Machine Sys2Proof.Terms Sys2Proof.Laws

/-! ## Frames of the remaining operations -/

section MoreFrames

variable {s t : State}

theorem frame_refl (s : State) : Frame [] [] [] s s := by
  refine ⟨fun r _ => ?_, fun _ _ => rfl, fun _ _ => rfl, rfl⟩
  cases r <;> rfl

/-- A frame that allows more is a frame. -/
theorem frame_mono {rs rs' : List Reg} {fs fs' : List Flag} {ws ws' : List Word} (h : Frame rs fs ws s t)
    (hrs : rs ⊆ rs') (hfs : fs ⊆ fs') (hws : ws ⊆ ws') : Frame rs' fs' ws' s t := by
  obtain ⟨hreg, hflag, hget, hcfg⟩ := h
  exact ⟨fun r hr => hreg r fun h => hr (hrs h), fun f hf => hflag f fun h => hf (hfs h),
    fun b hb => hget b fun a ha => hb a (hws ha), hcfg⟩

theorem frame_setPC (s : State) (v : Word) : Frame [.pc] [] [] s (s.setPC v) := by
  refine ⟨fun r hr => ?_, fun f _ => setPC_flag s v f, fun b _ => setPC_get s v b, setPC_cfg s v⟩
  cases r with
  | pc => exact absurd (List.mem_singleton_self _) hr
  | a | x | y | sp => rfl

theorem mem_allFlags (f : Flag) : f ∈ allFlags := by
  cases f <;> decide

theorem frame_setP (s : State) (v : Byte) : Frame [] allFlags [] s (s.setP v) := by
  refine ⟨fun r _ => ?_, fun f hf => absurd (mem_allFlags f) hf, fun b _ => setP_get s v b, setP_cfg s v⟩
  cases r <;> rfl

theorem sub_one_sub_one (v : Byte) : v - 1#8 - 1#8 = v - 2#8 := sub_sub v 1#8 1#8

/-- The two stack bytes of a pushed word, in the order they are written. -/
theorem frame_push16 (s : State) (w : Word) :
    Frame [.sp] [] [stackByte s.sp, stackByte (s.sp - 1#8)] s (s.push16 w) :=
  frame_mono (frame_trans (frame_push8 s (hi8 w)) (frame_push8 _ (lo8 w))) (by decide) (by decide)
    (List.Subset.refl _)

theorem frame_popped16 (s : State) : Frame [.sp] [] [] s s.popped16 := frame_setSP s _

theorem frame_bitTest (m : EaMode) (s : State) : Frame [] [.zero, .overflow, .sign] [] s (bitTest m s) :=
  frame_mono (frame_trans (frame_assign .zero _ s) (frame_trans (frame_assign .sign _ _) (frame_assign .overflow _ _)))
    (by decide) (by decide) (by decide)

theorem frame_rts (s : State) : Frame [.pc, .sp] [] [] s (rts s) :=
  frame_mono (frame_trans (frame_popped16 s) (frame_setPC _ _)) (by decide) (by decide) (by decide)

theorem frame_trapReturn (s : State) : Frame [.pc, .sp] allFlags [] s s.trapReturn :=
  frame_mono (frame_trans (frame_setSP s _) (frame_trans (frame_setP _ s.top8) (frame_setPC _ _)))
    (by decide) (by decide) (by decide)

theorem frame_jsr (m : EaMode) (s : State) :
    Frame [.pc, .sp] [] [stackByte s.sp, stackByte (s.sp - 1#8)] s (jsr m s) :=
  frame_mono (frame_trans (frame_push16 s _) (frame_setPC _ _)) (by decide) (by decide) (List.Subset.refl _)

theorem frame_trapEntry (s : State) :
    Frame [.pc, .sp] [.brk, .interruptDisable] [stackByte s.sp, stackByte (s.sp - 1#8), stackByte (s.sp - 2#8)] s
      s.trapEntry := by
  have hpush := frame_trans (frame_push16 s s.pc) (frame_push8 (s.push16 s.pc) (pushedStatus s.p))
  rw [push16_sp, sub_one_sub_one] at hpush
  exact frame_mono (frame_trans hpush (frame_trans (frame_assign .brk true _)
    (frame_trans (frame_assign .interruptDisable true _) (frame_setPC _ _)))) (by decide) (by decide)
    (List.Subset.refl _)

end MoreFrames

/-! ## The registers (10_state.md R21 to R24) -/

/-- The mnemonics that write a register, in some form. -/
def regWriters : Reg → List Mnemonic
  | .a => [.adc, .sbc, .and, .ora, .eor, .lda, .pla, .txa, .tya] ++ [.asl, .lsr, .rol, .ror]
  | .x => [.ldx, .inx, .dex, .tax, .tsx]
  | .y => [.ldy, .iny, .dey, .tay]
  | .sp => [.pha, .php, .pla, .plp, .jsr, .rts, .rti, .brk, .txs]
  | .pc => pcWriters

/-- `t` is `s` but for registers of which `mn` is a writer, flags and bytes of memory. -/
def RegFrame (mn : Mnemonic) (s t : State) : Prop :=
  ∃ rs fs ws, Frame rs fs ws s t ∧ ∀ r ∈ rs, mn ∈ regWriters r

section Effects

variable {mn : Mnemonic} {s t : State}

theorem regFrame_of_frame {rs : List Reg} {fs : List Flag} {ws : List Word} (h : Frame rs fs ws s t)
    (hrs : ∀ r ∈ rs, mn ∈ regWriters r) : RegFrame mn s t :=
  ⟨rs, fs, ws, h, hrs⟩

/-- What holds of a state and of the state after each address holds after the operation on any operand. -/
theorem onAddress_induction {P : State → Prop} {op : EaMode → State → State} (hs : P s) (hop : ∀ m, P (op m s))
    (o : Operand) : P (onAddress op o s) := by
  rcases o with _ | _ | m
  · exact hs
  · exact hs
  · exact hop m

theorem onOffset_induction {P : State → Prop} {op : Int → State → State} (hs : P s) (hop : ∀ off, P (op off s))
    (o : Operand) : P (onOffset op o s) := by
  unfold onOffset
  split
  · exact hop _
  · exact hs

theorem regFrame_onAddress {op : EaMode → State → State} (hop : ∀ m, RegFrame mn s (op m s))
    (o : Operand) : RegFrame mn s (onAddress op o s) :=
  onAddress_induction (P := RegFrame mn s)
    (regFrame_of_frame (frame_refl s) fun _ h => absurd h List.not_mem_nil) hop o

theorem regFrame_shiftOp (h : mn ∈ regWriters .a) (ea : Option Word) (f : Byte → Byte) (out : Byte → Bool) :
    RegFrame mn s (shiftOp ea f out s) := by
  cases ea with
  | none => exact regFrame_of_frame (frame_shiftOp_none f out s) (List.forall_mem_singleton.mpr h)
  | some addr => exact regFrame_of_frame (frame_shiftOp_some f out addr s) fun _ h => absurd h List.not_mem_nil

/-- A mnemonic writes no register that it is not listed for, on any operand. -/
theorem regFrame_effect (mn : Mnemonic) (o : Operand) (s : State) : RegFrame mn s (effect mn o s) := by
  cases mn with
  | adc => exact regFrame_onAddress (op := adc) (fun _ => regFrame_of_frame (frame_addToA _ s) (by decide)) o
  | sbc => exact regFrame_onAddress (op := sbc) (fun _ => regFrame_of_frame (frame_addToA _ s) (by decide)) o
  | and | ora | eor | lda =>
    exact regFrame_onAddress (fun _ => regFrame_of_frame (frame_logicalA _ s) (by decide)) o
  | ldx =>
    exact regFrame_onAddress (fun m => regFrame_of_frame (frame_setX_writeZN (s.operand m) s) (by decide)) o
  | ldy =>
    exact regFrame_onAddress (fun m => regFrame_of_frame (frame_setY_writeZN (s.operand m) s) (by decide)) o
  | cmp => exact regFrame_onAddress (op := cmp) (fun _ => regFrame_of_frame (frame_compareWith _ _ s) (by decide)) o
  | cpx => exact regFrame_onAddress (op := cpx) (fun _ => regFrame_of_frame (frame_compareWith _ _ s) (by decide)) o
  | cpy => exact regFrame_onAddress (op := cpy) (fun _ => regFrame_of_frame (frame_compareWith _ _ s) (by decide)) o
  | inc => exact regFrame_onAddress (op := inc) (fun _ => regFrame_of_frame (frame_modifyAt _ _ s) (by decide)) o
  | dec => exact regFrame_onAddress (op := dec) (fun _ => regFrame_of_frame (frame_modifyAt _ _ s) (by decide)) o
  | sta | stx | sty =>
    exact regFrame_onAddress (fun _ => regFrame_of_frame (frame_set s _ _) (by decide)) o
  | bit => exact regFrame_onAddress (fun _ => regFrame_of_frame (frame_bitTest _ s) (by decide)) o
  | jmp => exact regFrame_onAddress (fun _ => regFrame_of_frame (frame_setPC s _) (by decide)) o
  | jsr => exact regFrame_onAddress (fun _ => regFrame_of_frame (frame_jsr _ s) (by decide)) o
  | asl | lsr | rol => exact regFrame_shiftOp (by decide) (targetOf o s) _ _
  | ror =>
    show RegFrame .ror s (ror (targetOf o s) s)
    exact regFrame_shiftOp (by decide) _ _ _
  | bpl | bmi | bvc | bvs | bcc | bcs | bne | beq =>
    refine onOffset_induction (P := RegFrame _ s) ?_ (fun off => ?_) o
    · exact regFrame_of_frame (frame_refl s) (by decide)
    · exact regFrame_of_frame (frame_branchOn _ _ off s) (by decide)
  | inx | dex | tax | tsx => exact regFrame_of_frame (frame_setX_writeZN _ s) (by decide)
  | iny | dey | tay => exact regFrame_of_frame (frame_setY_writeZN _ s) (by decide)
  | txa | tya => exact regFrame_of_frame (frame_logicalA _ s) (by decide)
  | txs => exact regFrame_of_frame (frame_setSP s _) (by decide)
  | pha | php => exact regFrame_of_frame (frame_push8 s _) (by decide)
  | pla => exact regFrame_of_frame (frame_trans (frame_popped s) (frame_logicalA _ _)) (by decide)
  | plp => exact regFrame_of_frame (frame_trans (frame_popped s) (frame_setP _ _)) (by decide)
  | rts => exact regFrame_of_frame (frame_rts s) (by decide)
  | rti => exact regFrame_of_frame (frame_trapReturn s) (by decide)
  | brk => exact regFrame_of_frame (frame_trapEntry s) (by decide)
  | nop => exact regFrame_of_frame (frame_refl s) (by decide)
  | clc | sec | cli | sei | clv | cld | sed => exact regFrame_of_frame (frame_assign _ _ s) (by decide)

theorem same_effect_of_notMem_regWriters {r : Reg} (h : mn ∉ regWriters r) (o : Operand) (s : State) :
    r.Same s (effect mn o s) := by
  obtain ⟨rs, fs, ws, ⟨hreg, -⟩, hrs⟩ := regFrame_effect mn o s
  exact hreg r fun hr => h (hrs r hr)

theorem cfg_effect (mn : Mnemonic) (o : Operand) (s : State) : (effect mn o s).cfg = s.cfg := by
  obtain ⟨rs, fs, ws, ⟨-, -, -, hcfg⟩, -⟩ := regFrame_effect mn o s
  exact hcfg

/-- A shift or rotate of a byte of memory leaves A. -/
theorem a_effect_of_shift_at (h : mn ∈ [Mnemonic.asl, .lsr, .rol, .ror]) (m : EaMode) (s : State) :
    (effect mn (.at m) s).a = s.a := by
  simp only [List.mem_cons, List.not_mem_nil, or_false] at h
  rcases h with rfl | rfl | rfl | rfl <;> rfl

/-- A branch that is not taken leaves PC. -/
theorem pc_effect_of_not_taken {f : Flag} {b : Bool} (h : (mn, f, b) ∈ branchTests) (hf : s.flag f ≠ b)
    (o : Operand) : (effect mn o s).pc = s.pc := by
  rw [effect_of_mem_branchTests h]
  refine onOffset_induction (P := fun t => t.pc = s.pc) rfl (fun off => ?_) o
  rw [pc_branchOn, if_neg hf]

end Effects

theorem exists_at_of_mode {o : Operand} (himplied : o ≠ .implied) (hacc : o.mode ≠ .accumulator) :
    ∃ m, o = .at m := by
  rcases o with _ | _ | m
  · exact absurd rfl himplied
  · exact absurd rfl hacc
  · exact ⟨m, rfl⟩

/-- A is left by an instruction of no Accumulator form whose mnemonic is not listed for A: a shift or rotate among
these shifts a byte of memory. -/
theorem a_effect_of_instr {i : Instr} (hmn : i.mnemonic ∉ [.adc, .sbc, .and, .ora, .eor, .lda, .pla, .txa, .tya])
    (hmode : i.mode ≠ .accumulator) (s : State) : (effect i.mnemonic i.operand s).a = s.a := by
  by_cases hshift : i.mnemonic ∈ [Mnemonic.asl, .lsr, .rol, .ror]
  · obtain ⟨m, hm⟩ := exists_at_of_mode (operand_ne_implied_of_shift hshift) hmode
    rw [hm]
    exact a_effect_of_shift_at hshift m s
  · exact same_effect_of_notMem_regWriters (r := .a) (List.not_mem_append hmn hshift) i.operand s

/-- Settles O14: every effect has a frame whose registers its mnemonic is listed for. -/
theorem registersAreWrittenOnlyWhereListed : Obligations.RegistersAreWrittenOnlyWhereListed := by
  unfold Obligations.RegistersAreWrittenOnlyWhereListed
  intro i s t ht
  obtain rfl := Host.Outcome.next.inj ((exec_eq_effect i s).symm.trans ht)
  refine ⟨fun hmn hmode => a_effect_of_instr hmn hmode s, fun h => ?_, fun h => ?_, fun h => ?_, ?_⟩
  · exact same_effect_of_notMem_regWriters (r := .x) h _ s
  · exact same_effect_of_notMem_regWriters (r := .y) h _ s
  · exact same_effect_of_notMem_regWriters (r := .sp) h _ s
  · rintro (h | ⟨f, b, h, hf⟩)
    · exact pc_effect_of_notMem_pcWriters h _ s
    · exact pc_effect_of_not_taken h hf _

/-! ## The backing array (20_memory.md R71) -/

/-- A mnemonic that stores in no form leaves the whole backing array, on any operand. -/
theorem mem_effect_of_notMem_memoryWriters {mn : Mnemonic} (h : mn ∉ memoryWriters) (o : Operand) (s : State) :
    (effect mn o s).mem = s.mem := by
  cases mn with
  | adc | sbc | and | ora | eor | cmp | cpx | cpy | lda | ldx | ldy | bit | jmp =>
    exact onAddress_induction (P := fun t => t.mem = s.mem) rfl (fun _ => rfl) o
  | bpl | bmi | bvc | bvs | bcc | bcs | bne | beq =>
    refine onOffset_induction (P := fun t => t.mem = s.mem) rfl (fun off => ?_) o
    rw [branchOn_eq]
  | inx | iny | dex | dey | tax | tay | txa | tya | tsx | txs | pla | plp | rts | rti | nop | clc | sec | cli | sei
  | clv | cld | sed => rfl
  | sta | stx | sty | asl | lsr | rol | ror | inc | dec | pha | php | jsr | brk => exact absurd (by decide) h

theorem eq_accumulator_of_mode {o : Operand} (h : o.mode = .accumulator) : o = .accumulator := by
  rcases o with _ | _ | m
  · cases h
  · rfl
  · cases m <;> cases h

/-- Only a shift or rotate has an Accumulator form, and in it it stores nothing. -/
theorem mem_effect_of_accumulator {i : Instr} (h : i.mode = .accumulator) (s : State) :
    (effect i.mnemonic i.operand s).mem = s.mem := by
  have hshift := forall_instr_of_forall_row
    (P := fun mn m => m = .accumulator → mn ∈ [Mnemonic.asl, .lsr, .rol, .ror]) (by decide +kernel) i h
  have ho := eq_accumulator_of_mode h
  rw [ho]
  generalize i.mnemonic = mn at hshift
  simp only [List.mem_cons, List.not_mem_nil, or_false] at hshift
  rcases hshift with rfl | rfl | rfl | rfl <;> rfl

/-- Settles O15: an instruction that is none of the storing forms stores in no form, or has the Accumulator mode. -/
theorem memoryIsWrittenOnlyByStoringForms : Obligations.MemoryIsWrittenOnlyByStoringForms := by
  unfold Obligations.MemoryIsWrittenOnlyByStoringForms
  rintro i s t ht h
  obtain rfl := Host.Outcome.next.inj ((exec_eq_effect i s).symm.trans ht)
  rcases h with h | h
  · exact mem_effect_of_notMem_memoryWriters h _ s
  · exact mem_effect_of_accumulator h s

/-! ## The invariant (20_memory.md R72) -/

section Invariant

variable {s : State}

/-- A write through the port lists at most the folded address, which `fold` leaves alone. -/
theorem inv_set (h : s.Inv) (a : Word) (v : Byte) : (s.set a v).Inv := by
  obtain ⟨hwf, himage⟩ := h
  refine ⟨wf_set s a v hwf, fun c hc => ?_⟩
  rcases mem_writeCell hc with ⟨rfl, -⟩ | ⟨hc, -⟩
  · rw [BitVec.ofNat_toNat, BitVec.setWidth_eq]
    exact fold_fold s.cfg.prgMirror a
  · exact himage c hc

/-- The invariant speaks of the backing array and the configuration alone. -/
theorem inv_of_mem_eq {t : State} (hmem : t.mem = s.mem) (hcfg : t.cfg = s.cfg) (h : s.Inv) : t.Inv := by
  rw [State.Inv, hmem, hcfg]
  exact h

theorem inv_push8 (h : s.Inv) (v : Byte) : (s.push8 v).Inv := inv_set h (stackAddr s.sp) v

theorem inv_push16 (h : s.Inv) (w : Word) : (s.push16 w).Inv := inv_push8 (inv_push8 h _) _

theorem inv_jsr (h : s.Inv) (m : EaMode) : (jsr m s).Inv := inv_push16 h (s.pc - 1#16)

theorem inv_trapEntry (h : s.Inv) : s.trapEntry.Inv := inv_push8 (inv_push16 h s.pc) (pushedStatus s.p)

theorem inv_modifyAt (h : s.Inv) (addr : Word) (f : Byte → Byte) : (modifyAt addr f s).Inv :=
  inv_set h addr (f (s.get addr))

theorem inv_shiftOp (h : s.Inv) (ea : Option Word) (f : Byte → Byte) (out : Byte → Bool) :
    (shiftOp ea f out s).Inv := by
  cases ea with
  | none => exact h
  | some addr => exact inv_set h addr _

/-- Every effect keeps the invariant: the storing mnemonics write through the port, the others write no memory. -/
theorem inv_effect (h : s.Inv) (mn : Mnemonic) (o : Operand) : (effect mn o s).Inv := by
  cases mn with
  | sta | stx | sty => exact onAddress_induction h (fun _ => inv_set h _ _) o
  | inc => exact onAddress_induction (op := inc) h (fun _ => inv_modifyAt h _ _) o
  | dec => exact onAddress_induction (op := dec) h (fun _ => inv_modifyAt h _ _) o
  | asl | lsr | rol => exact inv_shiftOp h (targetOf o s) _ _
  | ror =>
    show (ror (targetOf o s) s).Inv
    exact inv_shiftOp h _ _ _
  | pha | php => exact inv_push8 h _
  | jsr => exact onAddress_induction h (inv_jsr h) o
  | brk => exact inv_trapEntry h
  | _ => exact inv_of_mem_eq (mem_effect_of_notMem_memoryWriters (by decide) o s) (cfg_effect _ o s) h

end Invariant

/-- Settles O9: a step that completes is an effect on the state with PC advanced, which has the same memory. -/
theorem stepKeepsTheInvariant : Obligations.StepKeepsTheInvariant := by
  unfold Obligations.StepKeepsTheInvariant
  intro s t hinv ht
  obtain ⟨i, -, rfl⟩ := step_next ht
  exact ⟨inv_effect (s := s.advance i.length) hinv _ _, cfg_effect _ _ _⟩

/-- One event that raises nothing keeps the invariant and the configuration. -/
theorem inv_applyEvent {e : Event} {s t : State} (hinv : s.Inv) (ht : applyEvent e s = .next t) :
    t.Inv ∧ t.cfg = s.cfg := by
  cases e with
  | step => exact stepKeepsTheInvariant s t hinv ht
  | write addr v =>
    cases ht
    exact ⟨inv_set hinv addr v, rfl⟩
  | reset a x y =>
    cases ht
    exact ⟨hinv, rfl⟩

theorem applyEvents_cons_eq_next {e : Event} {es : List Event} {s t : State} (h : applyEvents (e :: es) s = .next t) :
    ∃ u, applyEvent e s = .next u ∧ applyEvents es u = .next t := by
  rw [applyEvents] at h
  split at h
  next u hu => exact ⟨u, hu, h⟩
  all_goals cases h

/-- Settles O10, by induction on the list of events. -/
theorem eventsKeepTheInvariant : Obligations.EventsKeepTheInvariant := by
  unfold Obligations.EventsKeepTheInvariant
  intro es
  induction es with
  | nil =>
    intro s t hinv ht
    cases ht
    exact ⟨hinv, rfl⟩
  | cons e es ih =>
    intro s t hinv ht
    obtain ⟨u, hu, ht⟩ := applyEvents_cons_eq_next ht
    obtain ⟨hinv', hcfg⟩ := inv_applyEvent hinv hu
    obtain ⟨hinv'', hcfg'⟩ := ih u t hinv' ht
    exact ⟨hinv'', hcfg'.trans hcfg⟩

end Sys2Proof.Proofs
end

section
/-! Proofs about the flag ALU (O32) and about the sum of ADC and SBC: SBC as a subtraction (O34), and Overflow as signed
overflow of both (O35). -/

namespace Sys2Proof.Proofs

open Sys2Proof.Machine Sys2Proof.Terms Sys2Proof.Laws

/-! ## The flag ALU (10_state.md R29) -/

/-- One line of the flag ALU leaves every flag but its own. -/
theorem isSet_ite_assignFlag_of_ne {f g : Flag} (h : f ≠ g) (c : Prop) [Decidable c] (b : Bool) (p : Byte) :
    isSet f (if c then assignFlag g b p else p) = isSet f p := by
  split
  · rw [isSet_assignFlag, if_neg h]
  · rfl

/-- The flags that the flag ALU has no line for keep their value even where the mask names them (log 23). -/
theorem isSet_computeFlags_of_no_clause {f : Flag} (h : f ∈ [Flag.interruptDisable, .decimal, .brk, .unused])
    (mask : List Flag) (t : Nat) (a b p : Byte) : isSet f (computeFlags mask t a b p) = isSet f p := by
  have hne : f ≠ .carry ∧ f ≠ .zero ∧ f ≠ .sign ∧ f ≠ .overflow := by
    revert h
    cases f <;> decide
  obtain ⟨hc, hz, hn, hv⟩ := hne
  simp only [computeFlags, isSet_ite_assignFlag_of_ne hc, isSet_ite_assignFlag_of_ne hz,
    isSet_ite_assignFlag_of_ne hn, isSet_ite_assignFlag_of_ne hv]

theorem testBit_eight (t : Nat) : t.testBit 8 = decide (256 ≤ t % 512) := by
  rw [Nat.testBit_eq_decide_div_mod_eq]
  apply decide_eq_decide.mpr
  omega

theorem ofNat_beq_zero (t : Nat) : (BitVec.ofNat 8 t == 0#8) = decide (t % 256 = 0) := by
  rw [Bool.eq_iff_iff, beq_iff_eq, decide_eq_true_iff, ← BitVec.toNat_inj, BitVec.toNat_ofNat]
  rfl

theorem msb_ofNat (t : Nat) : (BitVec.ofNat 8 t).msb = decide (128 ≤ t % 256) := by
  rw [BitVec.msb_eq_decide, BitVec.toNat_ofNat]

/-- A byte that is masked to bit 7 differs from 0 exactly when it has that bit. -/
theorem and_signMask_bne (v : Byte) : (v &&& 0x80#8 != 0#8) = v.msb := isSet_eq_getLsbD .sign v

/-- The Overflow rule by the three signs. -/
theorem overflowOf_eq (a b r : Byte) : overflowOf a b r = decide (a.msb = b.msb ∧ r.msb ≠ a.msb) := by
  rw [overflowOf, and_signMask_bne, BitVec.msb_and, BitVec.msb_xor, BitVec.msb_xor]
  cases a.msb <;> cases b.msb <;> cases r.msb <;> rfl

/-- Settles O32: the law of each flag's line, with its value as a number. -/
theorem flagALURecomputesExactlyItsMask : Obligations.FlagALURecomputesExactlyItsMask := by
  unfold Obligations.FlagALURecomputesExactlyItsMask
  refine fun mask t a b p => ⟨fun f hf => ?_, fun h => ?_, fun h => ?_, fun h => ?_, fun h => ?_⟩
  · rcases hf with hf | hf
    · exact isSet_computeFlags_of_notMem mask t a b p f hf
    · exact isSet_computeFlags_of_no_clause hf mask t a b p
  · rw [isSet_computeFlags_carry _ _ _ _ _ h, testBit_eight]
  · rw [isSet_computeFlags_zero _ _ _ _ _ h, ofNat_beq_zero]
  · rw [isSet_computeFlags_sign _ _ _ _ _ h, msb_ofNat]
  · rw [isSet_computeFlags_overflow _ _ _ _ _ h, overflowOf_eq, msb_ofNat]

/-! ## SBC (40_arithmetic.md R131) -/

section Sbc

variable (m : Byte) (s : State)

/-- The sum with the one's complement and the carry is the difference, less the borrow. -/
theorem a_addToA_complement :
    (addToA (m ^^^ 0xFF#8) s).a = s.a - m - BitVec.ofNat 8 (1 - (s.flag .carry).toNat) := by
  have := m.isLt
  rw [addToA_a]
  cases s.flag .carry with
  | true => exact (ofNat_add_xor_ones_add_one s.a m).trans (sub_zero _).symm
  | false => exact eq_sub_of_add_eq ((BitVec.ofNat_add _ 1).symm.trans (ofNat_add_xor_ones_add_one s.a m))

/-- Carry after SBC is 1 exactly where there is no borrow. -/
theorem carry_addToA_complement :
    (addToA (m ^^^ 0xFF#8) s).flag .carry = decide (m.toNat + (1 - (s.flag .carry).toNat) ≤ s.a.toNat) := by
  have := m.isLt
  have := Bool.toNat_le (s.flag .carry)
  rw [carry_addToA, toNat_xor_ones]
  apply decide_eq_decide.mpr
  omega

/-- The Overflow rule on the complement: operands of different signs, and a result of another sign than A. -/
theorem overflowOf_complement (a r : Byte) :
    overflowOf a (m ^^^ 0xFF#8) r = ((a ^^^ m) &&& (a ^^^ r) &&& 0x80#8 != 0#8) := by
  rw [overflowOf, and_signMask_bne, and_signMask_bne]
  simp only [BitVec.msb_and, BitVec.msb_xor]
  cases a.msb <;> cases m.msb <;> cases r.msb <;> rfl

end Sbc

theorem exec_of_sbc {i : Instr} {m : EaMode} (hmn : i.mnemonic = .sbc) (ho : i.operand = .at m) (s : State) :
    exec i s = .next (addToA (s.operand m ^^^ 0xFF#8) s) :=
  exec_of_onAddress (op := sbc) (congrArg effect hmn) ho s

/-- Settles O34: SBC is the sum with the operand's complement, and Decimal is a flag that SBC is not listed as a reader
of. -/
theorem sbcSubtractsMemoryAndBorrow : Obligations.SbcSubtractsMemoryAndBorrow := by
  unfold Obligations.SbcSubtractsMemoryAndBorrow
  refine ⟨hasForms_formsOf .sbc, fun i m s hmn ho => ?_⟩
  refine ⟨_, exec_of_sbc hmn ho s, a_addToA_complement _ s, carry_addToA_complement _ s,
    (overflow_addToA _ s).trans (overflowOf_complement _ _ _), znOf_addToA _ s, frame_addToA _ s,
    fun b => ⟨_, exec_of_sbc hmn ho _, ?_⟩⟩
  obtain ⟨ha, -⟩ := equalBut_effect_assign (mn := .sbc) (f := .decimal) (by decide) (.at m) s b
  exact ha

/-! ## Overflow as signed overflow (40_arithmetic.md, integer laws) -/

/-- The signed value of a byte is the one of -128 to 127 that its number is, modulo 256. -/
theorem toInt_byte (v : Byte) : -128 ≤ v.toInt ∧ v.toInt ≤ 127 ∧ v.toInt % 256 = v.toNat := by
  have := v.isLt
  rw [BitVec.toInt_eq_toNat_cond]
  split <;> omega

/-- The sum of two signed bytes and a carry in: Overflow says that it does not fit in a signed byte, and where it fits
the result is the sum. -/
theorem signed_addToA (b : Byte) (s : State) :
    (addToA b s).flag .overflow = decide (s.a.toInt + b.toInt + (s.flag .carry).toNat < -128 ∨
      127 < s.a.toInt + b.toInt + (s.flag .carry).toNat) ∧
    ((addToA b s).flag .overflow = false →
      (addToA b s).a.toInt = s.a.toInt + b.toInt + (s.flag .carry).toNat) := by
  have hcarry := Bool.toNat_le (s.flag .carry)
  have ha := toInt_byte s.a
  have hb := toInt_byte b
  have hr := toInt_byte (addToA b s).a
  have hsum : (addToA b s).a.toNat = (s.a.toNat + b.toNat + (s.flag .carry).toNat) % 256 := BitVec.toNat_ofNat ..
  rw [overflow_addToA, overflowOf_eq]
  simp only [BitVec.msb_eq_toInt, ne_eq, decide_eq_decide, decide_eq_false_iff_not]
  omega

/-- The complement of a signed byte is its negation less 1. -/
theorem toInt_xor_ones (m : Byte) : (m ^^^ 0xFF#8).toInt = -m.toInt - 1 := by
  have := m.isLt
  have hm := toInt_byte m
  have hcompl := toInt_byte (m ^^^ 0xFF#8)
  rw [toNat_xor_ones] at hcompl
  omega

/-- Settles O35: `signed_addToA` of the operand for ADC and of its complement for SBC. -/
theorem overflowIsSignedOverflow : Obligations.OverflowIsSignedOverflow := by
  unfold Obligations.OverflowIsSignedOverflow
  refine fun i m s t ho ht => ⟨fun hmn => ?_, fun hmn => ?_⟩
  · obtain rfl := Host.Outcome.next.inj ((exec_of_adc hmn ho s).symm.trans ht)
    exact signed_addToA (s.operand m) s
  · obtain rfl := Host.Outcome.next.inj ((exec_of_sbc hmn ho s).symm.trans ht)
    have hsum : s.a.toInt + (s.operand m ^^^ 0xFF#8).toInt + (s.flag .carry).toNat =
        s.a.toInt - (s.operand m).toInt - (1 - ((s.flag .carry).toNat : Int)) := by
      rw [toInt_xor_ones]
      ring
    rw [← hsum]
    exact signed_addToA _ s

end Sys2Proof.Proofs
end

section
/-! Proofs of the family 48_control_nop.md and of the stack: Push16 and Pull16 (O23), PHA, PHP, PLA and PLP (O46, O47),
JMP, JSR, RTS, RTI, BRK and NOP (O48 to O53), and what RTI and RTS undo (O56, O57). -/

namespace Sys2Proof.Proofs

open Sys2Proof.Machine Sys2Proof.Terms Sys2Proof.Laws

/-! ## Stack bytes (20_memory.md R69, R70) -/

section StackBytes

variable (s : State)

theorem add_one_add_one (v : Byte) : v + 1#8 + 1#8 = v + 2#8 := add_assoc v 1#8 1#8

theorem add_one_add_two (v : Byte) : v + 1#8 + 2#8 = v + 3#8 := add_assoc v 1#8 2#8

theorem sub_one_sub_two (v : Byte) : v - 1#8 - 2#8 = v - 3#8 := sub_sub v 1#8 2#8

theorem stackAddr_ne_sub (sp : Byte) {k : Byte} (hk : k ≠ 0#8) : stackAddr sp ≠ stackAddr (sp - k) := by
  rw [Ne, stackAddr_inj, eq_comm, sub_eq_self]
  exact hk

/-- A stack byte folds onto itself, so what names it is what folds onto it. -/
theorem reads_stackByte {t : State} {sp v : Byte} (h : ∀ b, fold t.cfg.prgMirror b = stackAddr sp → t.get b = v) :
    Reads t (stackByte sp) v :=
  fun b hb => h b (hb.trans (fold_stackAddr _ sp))

theorem reads_push16_high (w : Word) : Reads (s.push16 w) (stackByte s.sp) (hi8 w) := by
  refine reads_stackByte fun b hb => ?_
  rw [push16_cfg] at hb
  rw [get_push16, hb, if_neg (stackAddr_ne_sub _ (by decide)), if_pos rfl]

theorem reads_push16_low (w : Word) : Reads (s.push16 w) (stackByte (s.sp - 1#8)) (lo8 w) := by
  refine reads_stackByte fun b hb => ?_
  rw [push16_cfg] at hb
  rw [get_push16, hb, if_pos rfl]

theorem sp_push16 (w : Word) : (s.push16 w).sp = s.sp - 2#8 := (push16_sp s w).trans (sub_one_sub_one s.sp)

theorem sp_popped16 : s.popped16.sp = s.sp + 2#8 := (popped16_sp s).trans (add_one_add_one s.sp)

/-- The pulled word: the low byte at the first stack byte above SP, the high byte at the second. -/
theorem top16_eq : s.top16 = s.get (stackByte (s.sp + 2#8)) ++ s.get (stackByte (s.sp + 1#8)) := by
  rw [← add_one_add_one]
  rfl

/-- A word read from where two reads find its halves is the word. -/
theorem top16_of_reads {t : State} {sp : Byte} {w : Word} (hsp : t.sp = sp - 2#8)
    (hhigh : Reads t (stackByte sp) (hi8 w)) (hlow : Reads t (stackByte (sp - 1#8)) (lo8 w)) : t.top16 = w := by
  have hsecond : t.sp + 2#8 = sp := by rw [hsp, sub_add_cancel]
  have hfirst : t.sp + 1#8 = sp - 1#8 := by
    rw [hsp, ← sub_one_sub_one, sub_add_cancel]
  rw [top16_eq, hsecond, hfirst, hhigh _ rfl, hlow _ rfl]
  exact pair_hi8_lo8 w

end StackBytes

/-- Settles O23: the two bytes of a pushed word, and that Pull16 reads them back. -/
theorem pulledWordIsThePushedWord : Obligations.PulledWordIsThePushedWord := by
  unfold Obligations.PulledWordIsThePushedWord
  intro s w
  have hpulled := top16_of_reads (sp_push16 s w) (reads_push16_high s w) (reads_push16_low s w)
  have hsp : (s.push16 w).popped16.sp = s.sp := by rw [sp_popped16, sp_push16, sub_add_cancel]
  exact ⟨reads_push16_high s w, reads_push16_low s w, sp_push16 s w, frame_push16 s w, hpulled, hsp⟩

/-! ## PHA, PHP, PLA and PLP (47_transfers_stack.md R186 to R189) -/

/-- PHA and PHP are `push8` of A and of the pushed copy of P. -/
theorem exec_of_push {i : Instr} {s : State} {v : Byte}
    (hv : (i.mnemonic, v) ∈ [(Mnemonic.pha, s.a), (.php, s.p ||| 0x30#8)]) : exec i s = .next (s.push8 v) := by
  simp only [List.mem_cons, Prod.mk.injEq, List.not_mem_nil, or_false] at hv
  rcases hv with ⟨hmn, rfl⟩ | ⟨hmn, rfl⟩
  · exact exec_of_noOperand (op := fun t => t.push8 t.a) (congrArg effect hmn) s
  · rw [← pushedStatus_eq]
    exact exec_of_noOperand (op := fun t => t.push8 (pushedStatus t.p)) (congrArg effect hmn) s

/-- Settles O46: both are `push8`, which writes the stack byte and SP. -/
theorem pushesStoreAtTheStackPointer : Obligations.PushesStoreAtTheStackPointer := by
  unfold Obligations.PushesStoreAtTheStackPointer
  refine ⟨hasForms_formsOf .pha, hasForms_formsOf .php, fun i s v hv => ?_⟩
  exact ⟨_, exec_of_push hv, reads_push8 s v, push8_sp s v, push8_p s v, frame_push8 s v⟩

theorem frame_pla (s : State) : Frame [.a, .sp] [.zero, .sign] [] s (logicalA s.top8 s.popped) :=
  frame_mono (frame_trans (frame_popped s) (frame_logicalA _ _)) (by decide) (by decide) (by decide)

/-- Settles O47: both increment SP; PLA then writes A with Zero and Sign, as the logical operations do, and PLP P. -/
theorem pullsLoadFromTheStack : Obligations.PullsLoadFromTheStack := by
  unfold Obligations.PullsLoadFromTheStack
  refine ⟨hasForms_formsOf .pla, hasForms_formsOf .plp, fun i s => ⟨fun hmn => ?_, fun hmn => ?_⟩⟩
  · exact ⟨logicalA s.top8 s.popped, exec_of_noOperand (congrArg effect hmn) s, rfl, rfl, znOf_logicalA _ _,
      frame_pla s⟩
  · exact ⟨s.popped.setP s.top8, exec_of_noOperand (congrArg effect hmn) s, rfl, rfl,
      frame_trans (frame_popped s) (frame_setP _ _)⟩

/-! ## JMP, JSR, RTS and NOP (48_control_nop.md R190 to R192, R195) -/

theorem samePageNext_eq (w : Word) :
    samePageNext w = if w.toNat % 256 = 0xFF then w &&& 0xFF00#16 else w + 1#16 := by
  split
  next h => exact samePageNext_of_eq h
  next h => exact samePageNext_of_ne h

/-- Settles O48: JMP is the write of PC with the effective address. -/
theorem jmpLoadsThePC : Obligations.JmpLoadsThePC := by
  unfold Obligations.JmpLoadsThePC
  refine ⟨hasForms_formsOf .jmp, fun i m s hmn ho => ?_, fun w s => ?_, fun w s => ?_⟩
  · exact ⟨jmp m s, exec_of_onAddress (congrArg effect hmn) ho s, rfl, frame_setPC s _⟩
  · exact ⟨jmp (.absolute w) s, exec_eq_effect _ s, rfl⟩
  · refine ⟨jmp (.indirect w) s, exec_eq_effect _ s, ?_⟩
    rw [← samePageNext_eq]
    rfl

section Jsr

variable (m : EaMode) (s : State)

theorem sp_jsr : (jsr m s).sp = s.sp - 2#8 := sp_push16 s (s.pc - 1#16)

theorem reads_jsr_high : Reads (jsr m s) (stackByte s.sp) (hi8 (s.pc - 1#16)) := reads_push16_high s (s.pc - 1#16)

theorem reads_jsr_low : Reads (jsr m s) (stackByte (s.sp - 1#8)) (lo8 (s.pc - 1#16)) :=
  reads_push16_low s (s.pc - 1#16)

end Jsr

/-- Settles O49: JSR is Push16 and the write of PC. -/
theorem jsrPushesTheAddressOfItsLastByte : Obligations.JsrPushesTheAddressOfItsLastByte := by
  unfold Obligations.JsrPushesTheAddressOfItsLastByte
  refine ⟨hasForms_formsOf .jsr, fun i w s hmn ho => ?_⟩
  exact ⟨jsr (.absolute w) s, exec_of_onAddress (congrArg effect hmn) ho s, rfl, sp_jsr _ s, reads_jsr_high _ s,
    reads_jsr_low _ s, frame_jsr _ s⟩

theorem pc_rts (s : State) :
    (rts s).pc = (s.get (stackByte (s.sp + 2#8)) ++ s.get (stackByte (s.sp + 1#8))) + 1#16 :=
  congrArg (· + 1#16) (top16_eq s)

/-- Settles O50: RTS is Pull16 and the write of PC. -/
theorem rtsReturnsPastThePulledAddress : Obligations.RtsReturnsPastThePulledAddress := by
  unfold Obligations.RtsReturnsPastThePulledAddress
  refine ⟨hasForms_formsOf .rts, fun i s hmn => ?_⟩
  exact ⟨rts s, exec_of_noOperand (congrArg effect hmn) s, pc_rts s, sp_popped16 s, frame_rts s⟩

theorem step_of_nop {s : State} (h : s.get s.pc = 0xEA#8) : step s = .next (s.advance 1) := by
  have hfetch : s.fetch = some .nop := by
    rw [State.fetch, State.opcodeByte, h]
    rfl
  exact step_of_fetch hfetch

/-- Settles O53: NOP's effect is the identity, and the byte 0xEA is fetched as NOP. -/
theorem nopChangesNothing : Obligations.NopChangesNothing := by
  unfold Obligations.NopChangesNothing
  refine ⟨hasForms_formsOf .nop, fun i s hmn => ⟨?_, ?_⟩, fun s => step_of_nop⟩
  · have hmode := forall_instr_of_forall_row (P := fun mn m => mn = .nop → m = .implied) (by decide +kernel) i hmn
    exact congrArg Mode.length hmode
  · exact exec_of_noOperand (op := id) (congrArg effect hmn) s

/-! ## RTI and BRK (48_control_nop.md R193, R194; 60_exceptions.md R216, R217) -/

section Trap

variable (s : State)

theorem sp_trapReturn : s.trapReturn.sp = s.sp + 3#8 := by
  rw [trapReturn_sp, add_one_add_one, add_one_add_two]

/-- PC after a trap return: the word above the flags, as it is. -/
theorem pc_trapReturn :
    s.trapReturn.pc = s.get (stackByte (s.sp + 3#8)) ++ s.get (stackByte (s.sp + 2#8)) := by
  rw [trapReturn_pc, top16_eq, popped_sp, add_one_add_two, add_one_add_one]
  rfl

theorem sp_trapEntry : s.trapEntry.sp = s.sp - 3#8 := by
  rw [trapEntry_sp, sub_one_sub_one, sub_one_sub_two]

theorem reads_trapEntry_high : Reads s.trapEntry (stackByte s.sp) (hi8 s.pc) := by
  refine reads_stackByte fun b hb => ?_
  rw [trapEntry_cfg] at hb
  rw [trapEntry_get, get_trapSaved, sub_one_sub_one, hb, if_neg (stackAddr_ne_sub _ (by decide)),
    if_neg (stackAddr_ne_sub _ (by decide)), if_pos rfl]

theorem reads_trapEntry_low : Reads s.trapEntry (stackByte (s.sp - 1#8)) (lo8 s.pc) := by
  refine reads_stackByte fun b hb => ?_
  rw [trapEntry_cfg] at hb
  rw [trapEntry_get, get_trapSaved, hb, if_neg (stackAddr_ne_sub _ (by decide)), if_pos rfl]

theorem reads_trapEntry_status : Reads s.trapEntry (stackByte (s.sp - 2#8)) (s.p ||| 0x30#8) := by
  refine reads_stackByte fun b hb => ?_
  rw [trapEntry_cfg] at hb
  rw [trapEntry_get, get_trapSaved, sub_one_sub_one, hb, if_pos rfl, pushedStatus_eq]

theorem flag_trapEntry_of_mem {f : Flag} (hf : f ∈ [Flag.brk, .interruptDisable]) : s.trapEntry.flag f = true := by
  simp only [List.mem_cons, List.not_mem_nil, or_false] at hf
  rcases hf with rfl | rfl <;> simp [State.flag]

/-- The range from 0x4000 on shares no cell with the stack page. -/
theorem fold_ne_fold_stackByte (pm : Bool) {a : Word} (h : 0x4000 ≤ a.toNat) (sp : Byte) :
    fold pm a ≠ fold pm (stackByte sp) := by
  have hsp := sp.isLt
  rw [stackByte_eq_stackAddr, fold_stackAddr, Ne, ← BitVec.toNat_inj, toNat_stackAddr]
  rcases fold_cases pm a with ⟨hr, hf⟩ | ⟨-, hr, hf⟩ | ⟨-, -, hf⟩ | ⟨-, -, hf⟩ <;> omega

/-- A trap entry leaves every byte from 0x4000 on, the BRK vector with them. -/
theorem get_trapEntry_of_high {a : Word} (h : 0x4000 ≤ a.toNat) : s.trapEntry.get a = s.get a := by
  obtain ⟨-, -, hget, -⟩ := frame_trapEntry s
  refine hget a fun w hw => ?_
  simp only [List.mem_cons, List.not_mem_nil, or_false] at hw
  rcases hw with rfl | rfl | rfl
  all_goals exact fold_ne_fold_stackByte _ h _

theorem pc_trapEntry : s.trapEntry.pc = s.get 0xFFFF#16 ++ s.get 0xFFFE#16 :=
  congrArg₂ (fun h l : Byte => h ++ l) (get_trapEntry_of_high s (a := 0xFFFF#16) (by decide))
    (get_trapEntry_of_high s (a := 0xFFFE#16) (by decide))

end Trap

/-- Settles O51: RTI is the trap return. -/
theorem rtiRestoresTheFlagsAndThePC : Obligations.RtiRestoresTheFlagsAndThePC := by
  unfold Obligations.RtiRestoresTheFlagsAndThePC
  refine ⟨hasForms_formsOf .rti, fun i s hmn => ?_⟩
  exact ⟨s.trapReturn, exec_of_noOperand (congrArg effect hmn) s, rfl, pc_trapReturn s, sp_trapReturn s,
    frame_trapReturn s⟩

/-- Settles O52: BRK is the trap entry. -/
theorem brkEntersTheTrap : Obligations.BrkEntersTheTrap := by
  unfold Obligations.BrkEntersTheTrap
  refine ⟨hasForms_formsOf .brk, fun i s hmn => ?_⟩
  exact ⟨s.trapEntry, exec_of_noOperand (congrArg effect hmn) s, reads_trapEntry_high s, reads_trapEntry_low s,
    reads_trapEntry_status s, sp_trapEntry s, flag_trapEntry_of_mem s (by decide), flag_trapEntry_of_mem s (by decide),
    pc_trapEntry s, frame_trapEntry s⟩

/-! ## What RTI and RTS undo (48_control_nop.md R191 to R194) -/

section Undo

variable {s t : State}

/-- What is restored need not be in the frame. -/
theorem frame_of_restored {rs : List Reg} {fs fs' : List Flag} {ws : List Word} (h : Frame rs fs ws s t)
    (hrs : ∀ r ∈ rs, r.Same s t) (hfs : ∀ f ∈ fs, f ∉ fs' → t.flag f = s.flag f) :
    Frame [] fs' ws s t := by
  obtain ⟨hreg, hflag, hget, hcfg⟩ := h
  refine ⟨fun r _ => ?_, fun f hf' => ?_, hget, hcfg⟩
  · by_cases hr : r ∈ rs
    · exact hrs r hr
    · exact hreg r hr
  · by_cases hf : f ∈ fs
    · exact hfs f hf hf'
    · exact hflag f hf

theorem same_of_pc_of_sp (hpc : t.pc = s.pc) (hsp : t.sp = s.sp) : ∀ r ∈ [Reg.pc, .sp], r.Same s t :=
  List.forall_mem_cons.mpr ⟨hpc, List.forall_mem_singleton.mpr hsp⟩

/-- P as pushed has every flag but Break and Unused from P. -/
theorem isSet_or_pushMask {f : Flag} (hf : f ∉ [Flag.brk, .unused]) (p : Byte) :
    isSet f (p ||| 0x30#8) = isSet f p := by
  simp only [List.mem_cons, List.not_mem_nil, or_false, not_or] at hf
  simp [← pushedStatus_eq, hf]

/-- A trap return from where three reads find a word's halves and a status byte. -/
theorem trapReturn_of_reads {sp p : Byte} {w : Word} (hsp : t.sp = sp - 3#8)
    (hhigh : Reads t (stackByte sp) (hi8 w)) (hlow : Reads t (stackByte (sp - 1#8)) (lo8 w))
    (hp : Reads t (stackByte (sp - 2#8)) p) :
    t.trapReturn.pc = w ∧ t.trapReturn.p = p ∧ t.trapReturn.sp = sp := by
  have hthird : t.sp + 3#8 = sp := by rw [hsp, sub_add_cancel]
  have hsecond : t.sp + 2#8 = sp - 1#8 := hsp ▸ sub_add sp 3#8 2#8
  have hfirst : t.sp + 1#8 = sp - 2#8 := hsp ▸ sub_add sp 3#8 1#8
  refine ⟨?_, ?_, (sp_trapReturn t).trans hthird⟩
  · rw [pc_trapReturn, hthird, hsecond, hhigh _ rfl, hlow _ rfl]
    exact pair_hi8_lo8 w
  · rw [trapReturn_p, State.top8, hfirst]
    exact hp _ rfl

end Undo

/-- Settles O56: the trap return reads the three bytes that the trap entry pushed. -/
theorem rtiUndoesBrk : Obligations.RtiUndoesBrk := by
  unfold Obligations.RtiUndoesBrk
  intro i j s t pc hi hj ht
  obtain rfl := Host.Outcome.next.inj ((exec_of_noOperand (op := State.trapEntry) (congrArg effect hi) s).symm.trans ht)
  obtain ⟨hpc, hp, hsp⟩ := trapReturn_of_reads (t := s.trapEntry.setPC pc) (sp_trapEntry s) (reads_trapEntry_high s)
    (reads_trapEntry_low s) (reads_trapEntry_status s)
  have hframe := frame_mono (frame_trans (frame_trapEntry s) (frame_trans (frame_setPC _ pc) (frame_trapReturn _)))
    (rs' := [.pc, .sp]) (by decide) (fun f _ => mem_allFlags f) (List.Subset.refl _)
  refine ⟨_, exec_of_noOperand (op := State.trapReturn) (congrArg effect hj) _, hpc, hp, hsp,
    frame_of_restored hframe (same_of_pc_of_sp hpc hsp) fun f _ hf => ?_⟩
  exact (congrArg (isSet f) hp).trans (isSet_or_pushMask hf s.p)

/-- JSR has the Absolute form alone. -/
theorem exec_of_jsr {i : Instr} (hi : i.mnemonic = .jsr) (s : State) : ∃ m, exec i s = .next (jsr m s) := by
  have hmode := forall_instr_of_forall_row (P := fun mn m => mn = .jsr → m = .absolute) (by decide +kernel) i hi
  have himplied : i.operand ≠ .implied := fun h => by
    rw [Instr.mode, h] at hmode
    cases hmode
  have hacc : i.operand.mode ≠ .accumulator := fun h => by cases hmode.symm.trans h
  obtain ⟨m, hm⟩ := exists_at_of_mode himplied hacc
  exact ⟨m, exec_of_onAddress (congrArg effect hi) hm s⟩

/-- Settles O57: RTS reads the two bytes that JSR pushed, and adds the 1 that JSR took off. -/
theorem rtsUndoesJsr : Obligations.RtsUndoesJsr := by
  unfold Obligations.RtsUndoesJsr
  intro i j s t pc hi hj ht
  obtain ⟨m, hexec⟩ := exec_of_jsr hi s
  obtain rfl := Host.Outcome.next.inj (hexec.symm.trans ht)
  have htop : ((jsr m s).setPC pc).top16 = s.pc - 1#16 :=
    top16_of_reads (t := (jsr m s).setPC pc) (sp_jsr m s) (reads_jsr_high m s) (reads_jsr_low m s)
  have hpc : (rts ((jsr m s).setPC pc)).pc = s.pc := (congrArg (· + 1#16) htop).trans (sub_add_cancel _ _)
  have hsp : (rts ((jsr m s).setPC pc)).sp = s.sp :=
    (sp_popped16 _).trans ((congrArg (· + 2#8) (sp_jsr m s)).trans (sub_add_cancel _ _))
  have hframe := frame_mono (frame_trans (frame_jsr m s) (frame_trans (frame_setPC _ pc) (frame_rts _)))
    (rs' := [.pc, .sp]) (fs' := []) (by decide) (by decide) (List.Subset.refl _)
  exact ⟨_, exec_of_noOperand (op := rts) (congrArg effect hj) _, hpc, hsp,
    frame_of_restored hframe (same_of_pc_of_sp hpc hsp) fun _ hf => absurd hf List.not_mem_nil⟩

end Sys2Proof.Proofs
end

section
/-! Proofs about the flag instructions (O54), BIT (O55), the cycle total (O58), and reset (O11, O12). -/

namespace Sys2Proof.Proofs

open Sys2Proof.Machine Sys2Proof.Terms Sys2Proof.Laws

/-! ## CLC, SEC, CLI, SEI, CLV, CLD and SED (49_flagops_bit.md R200 to R206) -/

theorem flag_assign_same (f : Flag) (b : Bool) (s : State) : (s.assign f b).flag f = b := by
  simp [State.flag]

/-- Each of the seven is `assign` of its flag and value. -/
theorem effect_of_flag_instruction {mn : Mnemonic} {f : Flag} {b : Bool}
    (h : (mn, f, b) ∈ [(Mnemonic.clc, Flag.carry, false), (.sec, .carry, true), (.cli, .interruptDisable, false),
      (.sei, .interruptDisable, true), (.clv, .overflow, false), (.cld, .decimal, false), (.sed, .decimal, true)]) :
    effect mn = fun _ => State.assign f b := by
  simp only [List.mem_cons, Prod.mk.injEq, List.not_mem_nil, or_false] at h
  rcases h with ⟨rfl, rfl, rfl⟩ | ⟨rfl, rfl, rfl⟩ | ⟨rfl, rfl, rfl⟩ | ⟨rfl, rfl, rfl⟩ | ⟨rfl, rfl, rfl⟩ |
    ⟨rfl, rfl, rfl⟩ | ⟨rfl, rfl, rfl⟩ <;> rfl

/-- Settles O54: each of the seven is the write of one flag. -/
theorem flagInstructionsWriteOneFlag : Obligations.FlagInstructionsWriteOneFlag := by
  unfold Obligations.FlagInstructionsWriteOneFlag
  refine ⟨hasForms_formsOf .clc, hasForms_formsOf .sec, hasForms_formsOf .cli, hasForms_formsOf .sei,
    hasForms_formsOf .clv, hasForms_formsOf .cld, hasForms_formsOf .sed, fun i s f b h => ?_⟩
  exact ⟨s.assign f b, exec_of_noOperand (effect_of_flag_instruction h) s, flag_assign_same f b s, frame_assign f b s⟩

/-! ## BIT (49_flagops_bit.md R207) -/

section Bit

variable (m : EaMode) (s : State)

theorem zero_bitTest : (bitTest m s).flag .zero = (s.a &&& s.operand m == 0#8) := by
  simp [bitTest, State.flag]

theorem sign_bitTest : (bitTest m s).flag .sign = (s.operand m).getLsbD 7 := by
  simp [bitTest, State.flag]

theorem overflow_bitTest : (bitTest m s).flag .overflow = (s.operand m).getLsbD 6 := flag_assign_same _ _ _

end Bit

/-- Two bytes have no bit in common exactly when their bitwise and is 0. -/
theorem and_beq_zero_iff (v w : Byte) :
    (v &&& w == 0#8) = true ↔ ∀ k, k < 8 → (v.getLsbD k && w.getLsbD k) = false := by
  rw [beq_iff_eq]
  refine ⟨fun h k _ => ?_, fun h => BitVec.eq_of_getLsbD_eq fun k hk => ?_⟩
  · rw [← BitVec.getLsbD_and, h, BitVec.getLsbD_zero]
  · rw [BitVec.getLsbD_and, h k hk, BitVec.getLsbD_zero]

/-- Settles O55: BIT is three flag writes. -/
theorem bitTestsMemoryAgainstTheAccumulator : Obligations.BitTestsMemoryAgainstTheAccumulator := by
  unfold Obligations.BitTestsMemoryAgainstTheAccumulator
  refine ⟨hasForms_formsOf .bit, fun i m s hmn ho => ?_⟩
  refine ⟨bitTest m s, exec_of_onAddress (congrArg effect hmn) ho s, ?_, sign_bitTest m s, overflow_bitTest m s,
    frame_bitTest m s⟩
  rw [zero_bitTest]
  exact and_beq_zero_iff _ _

/-! ## The cycle total (30_encoding.md R99) -/

/-- What the table's rows keep: a base count that leaves room for the page-cross cycle, and on a branch, which is
Relative, two cycles and no page-cross cycle. -/
theorem cycles_of_mem_opcodeTable :
    ∀ r ∈ opcodeTable, 2 ≤ r.baseCycles ∧ r.baseCycles + r.pagePenalty.toNat ≤ 7 ∧
      ((branchCondition r.mnemonic).isSome → r.mode = .relative ∧ r.pagePenalty = false) := by
  decide +kernel

/-- The page-cross cycle is paid exactly by the reading instructions in the indexed modes. -/
theorem pagePenalty_of_mem_opcodeTable :
    ∀ r ∈ opcodeTable, r.pagePenalty = true ↔ r.mode ∈ [Mode.absoluteX, .absoluteY, .indirectIndexed] ∧
      r.mnemonic ∈ [.adc, .and, .cmp, .eor, .lda, .ldx, .ldy, .ora, .sbc] := by
  decide +kernel

theorem mem_branchTests_of_branchCondition {mn : Mnemonic} {f : Flag} {b : Bool}
    (h : branchCondition mn = some (f, b)) : (mn, f, b) ∈ branchTests := by
  cases mn with
  | bpl | bmi | bvc | bvs | bcc | bcs | bne | beq =>
    cases h
    decide
  | _ => cases h

section Cycles

variable {r : OpcodeRow} {s : State}

theorem branchTaken_of_branchCondition_none {mn : Mnemonic} (h : branchCondition mn = none) :
    s.branchTaken mn = false := by
  rw [State.branchTaken, h]

/-- A mnemonic whose test fails, or that has none, takes no branch. -/
theorem branchTaken_of_tests {mn : Mnemonic} (h : ∀ f b, (mn, f, b) ∈ branchTests → s.flag f ≠ b) :
    s.branchTaken mn = false := by
  cases hc : branchCondition mn with
  | none => exact branchTaken_of_branchCondition_none hc
  | some q =>
    obtain ⟨f, b⟩ := q
    rw [State.branchTaken, hc]
    exact beq_false_of_ne (h f b (mem_branchTests_of_branchCondition hc))

theorem branchTaken_of_mode_ne (hr : r ∈ opcodeTable) (h : r.mode ≠ .relative) : s.branchTaken r.mnemonic = false := by
  cases hc : branchCondition r.mnemonic with
  | none => exact branchTaken_of_branchCondition_none hc
  | some q =>
    obtain ⟨-, -, hbranch⟩ := cycles_of_mem_opcodeTable r hr
    obtain ⟨hmode, -⟩ := hbranch (hc ▸ rfl)
    exact absurd hmode h

/-- Without a taken branch the total is the base count and the page-cross cycle. -/
theorem cycleTotal_of_not_taken (h : s.branchTaken r.mnemonic = false) (i : Instr) :
    cycleTotal r i s = r.baseCycles + (s.operandCrossed i.operand && r.pagePenalty).toNat := by
  simp [cycleTotal, h]

theorem toNat_and_eq_ite (b c : Bool) : (b && c).toNat = if b = true ∧ c = true then 1 else 0 := by
  cases b <;> cases c <;> rfl

/-- A branch pays no page-cross cycle of its mode, and any other instruction none of a branch. -/
theorem cycleTotal_bounds (hr : r ∈ opcodeTable) (i : Instr) (s : State) :
    2 ≤ cycleTotal r i s ∧ cycleTotal r i s ≤ 7 := by
  obtain ⟨hlow, hhigh, hbranch⟩ := cycles_of_mem_opcodeTable r hr
  cases hc : branchCondition r.mnemonic with
  | none =>
    have hpenalty : (s.operandCrossed i.operand && r.pagePenalty).toNat ≤ r.pagePenalty.toNat := by
      cases s.operandCrossed i.operand <;> simp
    rw [cycleTotal_of_not_taken (branchTaken_of_branchCondition_none hc)]
    omega
  | some q =>
    have hsome : (branchCondition r.mnemonic).isSome := hc ▸ rfl
    obtain ⟨-, hpenalty⟩ := hbranch hsome
    have hbase := baseCycles_of_branchCondition r hr hsome
    have htaken := Bool.toNat_le (s.branchTaken r.mnemonic)
    have hcrossed := Bool.toNat_le (s.branchTaken r.mnemonic && s.targetCrossed i.operand)
    rw [cycleTotal, hbase, hpenalty, Bool.and_false, Bool.toNat_false]
    omega

/-- A taken branch pays one cycle more than its row's, and another when its target is on another page; the Relative
mode itself signals no page cross. -/
theorem cycleTotal_of_taken {i : Instr} {off : Int} {f : Flag} {b : Bool} (ho : i.operand = .at (.relative off))
    (h : (r.mnemonic, f, b) ∈ branchTests) (hf : s.flag f = b) :
    cycleTotal r i s =
      r.baseCycles + 1 + if hi8 (s.pc + BitVec.ofInt 16 off) = hi8 s.pc then 0 else 1 := by
  have htaken : s.branchTaken r.mnemonic = true := by
    rw [State.branchTaken, branchCondition_of_mem_branchTests h]
    exact beq_iff_eq.mpr hf
  have hmode : s.operandCrossed (.at (.relative off)) = false := rfl
  have htarget : s.targetCrossed (.at (.relative off)) = (hi8 (s.pc + BitVec.ofInt 16 off) != hi8 s.pc) := rfl
  rw [cycleTotal, htaken, ho, hmode, htarget]
  by_cases hpage : hi8 (s.pc + BitVec.ofInt 16 off) = hi8 s.pc
  · simp [hpage]
  · simp [hpage, bne_iff_ne.mpr hpage]

end Cycles

/-- Settles O58: the fetched instruction has the row's mode, so a branch is Relative and taken by its test, and any
other instruction pays at most the page-cross cycle. -/
theorem cycleTotalFollowsItsFormula : Obligations.CycleTotalFollowsItsFormula := by
  unfold Obligations.CycleTotalFollowsItsFormula
  intro s r hr
  have hmem : r ∈ opcodeTable := List.mem_of_find?_eq_some hr
  have hfetch := fetch_of_lookupOpcode hr
  have hcycles := stepCycles_of_fetch hr hfetch
  obtain ⟨-, -, ho⟩ := build_of_lookupOpcode hr (s.get (s.pc + 1#16)) (s.get (s.pc + 2#16))
  rw [length_build hr] at hcycles
  generalize r.build (s.get (s.pc + 1#16)) (s.get (s.pc + 2#16)) = i at hfetch hcycles ho
  have hmode : i.operand.mode = r.mode := by rw [ho, mode_operandOf]
  obtain ⟨hlow, hhigh⟩ := cycleTotal_bounds hmem i (s.advance r.mode.length)
  refine ⟨i, _, hfetch, hcycles, hlow, hhigh, fun m hm htests => ?_, fun hm => ?_, fun off f b hoff h hf => ?_,
    pagePenalty_of_mem_opcodeTable r hmem⟩
  · have htaken : (s.advance r.mode.length).branchTaken r.mnemonic = false := branchTaken_of_tests htests
    rw [cycleTotal_of_not_taken htaken, hm, toNat_and_eq_ite]
    rfl
  · have hne : r.mode ≠ .relative := by
      rw [← hmode]
      rcases hm with hm | hm <;> rw [hm] <;> decide
    rw [cycleTotal_of_not_taken (branchTaken_of_mode_ne hmem hne)]
    rcases hm with hm | hm <;> rw [hm] <;> rfl
  · have hrelative : r.mode = .relative := by
      rw [← hmode, hoff]
      rfl
    rw [hrelative]
    exact cycleTotal_of_taken hoff h hf

/-! ## Reset (70_reset_and_hazards.md R230) -/

/-- Settles O11: the empty memory is canonical, and the rest are the values that `State.reset` writes. -/
theorem resetStateIsAsNamed : Obligations.ResetStateIsAsNamed := by
  unfold Obligations.ResetStateIsAsNamed
  have hinv : State.reset.Inv := ⟨wf_nil, fun _ h => absurd h List.not_mem_nil⟩
  exact ⟨hinv, rfl, rfl, rfl, rfl, rfl, rfl, rfl, rfl⟩

theorem isSet_pReset (f : Flag) : isSet f Config.pReset = decide (f = .unused ∨ f = .interruptDisable) := by
  cases f <;> decide

/-- Reset reads the memory and the configuration, and no register. -/
theorem applyReset_congr (a x y : Byte) {s s' : State} (hmem : s'.mem = s.mem) (hcfg : s'.cfg = s.cfg) :
    s'.applyReset a x y = s.applyReset a x y := by
  simp only [State.applyReset, State.get16, hmem, hcfg]

/-- Settles O12: PC by `get16_eq`, the flags by the bits of P_RESET, the other fields as reset writes them. -/
theorem resetLoadsThePCFromTheVector : Obligations.ResetLoadsThePCFromTheVector := by
  unfold Obligations.ResetLoadsThePCFromTheVector
  exact fun a x y s => ⟨get16_eq s Config.resetVector, rfl, rfl, isSet_pReset, rfl, rfl, rfl, rfl, rfl,
    fun _ => applyReset_congr a x y⟩

end Sys2Proof.Proofs
end
